-- ==== Sys2Proof/Word.lean ====
section
/-! DEFINITION. The bit-vector widths the spec uses (00_scope.md R8). Nothing in the block is signed. -/

namespace Sys2Proof

/-- A row or column index 0..3 (10_state.md R21, R22). -/
abbrev Idx := BitVec 2

/-- Four row lines or four column lines; bit `k` is line `k` (10_state.md R14, R15). -/
abbrev Lines := BitVec 4

/-- A 16-bit ButtonMask (30_encoding.md R66). -/
abbrev Mask := BitVec 16

/-- The LAYOUT table: sixteen 4-bit cells in one value (20_memory.md R43). -/
abbrev Layout := BitVec 64

/-- A 3-bit error code (30_encoding.md R64). -/
abbrev ErrCode := BitVec 3

end Sys2Proof
end

