-- ==== Sys2Proof/Syntax.lean ====
section
/-! DEFINITION. What takes the place of instructions (30_encoding.md R57): host commands and FSM micro-operations, one
constructor for each row of spec/opcode_table.json. -/

namespace Sys2Proof

/-- The eight FSM phases (10_state.md R20, 30_encoding.md R62). -/
inductive Phase where
  | init
  | idle
  | row
  | settle
  | sample
  | deassert
  | finish
  | initFailed
  deriving DecidableEq, Repr

/-- The two instruction formats (30_encoding.md R58, R61). -/
inductive Format where
  | hostcmd
  | state
  deriving DecidableEq, Repr

/-- The instructions. A host command carries only the operand the spec gives it: bits it ignores are no operand
(R122, R74, R76). A micro-operation carries the `r` and `c` fields of its state word (R61). -/
inductive Instr where
  /-- RESET, `{rst, cmd} = 1xx` (70_reset_and_hazards.md R122). -/
  | reset
  /-- NOP, `000` (40_commands.md R74). -/
  | nop
  /-- READ, `001`, with the settle count (40_commands.md R75, 30_encoding.md R68). -/
  | read (settleLen : Nat)
  /-- RSV2, `010` (40_commands.md R76). -/
  | rsv2
  /-- RSV3, `011` (40_commands.md R76). -/
  | rsv3
  /-- INIT, phase `000` (41_scan_fsm.md R79). -/
  | init (r c : Idx)
  /-- IDLE, phase `001` (R80). -/
  | idle (r c : Idx)
  /-- ROW, phase `010` (R81). -/
  | row (r c : Idx)
  /-- SETTLE, phase `011` (R82). -/
  | settle (r c : Idx)
  /-- SAMPLE, phase `100` (R83). -/
  | sample (r c : Idx)
  /-- DEASSERT, phase `101` (R84). -/
  | deassert (r c : Idx)
  /-- FINISH, phase `110` (R85). -/
  | finish (r c : Idx)
  /-- INIT_FAILED, phase `111` (R86). -/
  | initFailed (r c : Idx)
  deriving DecidableEq, Repr

/-- The format of an instruction's word. -/
def Instr.format : Instr → Format
  | .reset => .hostcmd
  | .nop => .hostcmd
  | .read _ => .hostcmd
  | .rsv2 => .hostcmd
  | .rsv3 => .hostcmd
  | .init _ _ => .state
  | .idle _ _ => .state
  | .row _ _ => .state
  | .settle _ _ => .state
  | .sample _ _ => .state
  | .deassert _ _ => .state
  | .finish _ _ => .state
  | .initFailed _ _ => .state

end Sys2Proof
end

