-- ==== Sys2Proof/WellFormed.lean ====
section
/-! DEFINITION. Which instructions are well-formed on a block of counter width SW: a settle count fits SW bits
(30_encoding.md R68), and a state word is one of the 35 reachable words (R63). -/

namespace Sys2Proof

/-- Well-formedness of an instruction, on a block with the elaboration parameter SW. -/
def Instr.wf (sw : Nat) : Instr → Bool
  | .reset => true
  | .nop => true
  | .read settleLen => decide (settleLen < 2 ^ sw)
  | .rsv2 => true
  | .rsv3 => true
  | .init _ c => c == 0#2
  | .idle r c => r == 0#2 && c == 0#2
  | .row _ c => c == 0#2
  | .settle _ c => c == 0#2
  | .sample _ _ => true
  | .deassert _ c => c == 0#2
  | .finish r c => r == 3#2 && c == 0#2
  | .initFailed r c => r == 0#2 && c == 0#2

end Sys2Proof
end

