-- ==== Sys2Proof/Decode.lean ====
section
/-! DEFINITION. The decoder of host words and state words, and after it the encoder, both written from
30_encoding.md R58 to R62. A word is a number whose bit 0 is the least significant bit (00_scope.md R8). -/

namespace Sys2Proof

/-- Why a number is no word of a format: every host word is `SW + 3` bits and every state word is 7 bits (R70). -/
inductive DecodeError where
  /-- A number of more than `SW + 3` bits given as a host word. -/
  | hostWordTooWide
  /-- A number of more than 7 bits given as a state word. -/
  | stateWordTooWide
  deriving DecidableEq, Repr

/-- `word[lo + width - 1 : lo]` as an unsigned number (00_scope.md R8). -/
def wordField (word lo width : Nat) : Nat := word / 2 ^ lo % 2 ^ width

/-- The phase encoding (R62). -/
def Phase.code : Phase → BitVec 3
  | .init => 0b000#3
  | .idle => 0b001#3
  | .row => 0b010#3
  | .settle => 0b011#3
  | .sample => 0b100#3
  | .deassert => 0b101#3
  | .finish => 0b110#3
  | .initFailed => 0b111#3

/-- The phase a 3-bit value encodes: every value is assigned (R62). -/
def Phase.ofCode (b : BitVec 3) : Phase :=
  if b = 0b000#3 then .init
  else if b = 0b001#3 then .idle
  else if b = 0b010#3 then .row
  else if b = 0b011#3 then .settle
  else if b = 0b100#3 then .sample
  else if b = 0b101#3 then .deassert
  else if b = 0b110#3 then .finish
  else .initFailed

/-- The command that the fields of a host word name, in the priority order of R59. -/
def hostCommand (rst : Bool) (cmd : BitVec 2) (settleLen : Nat) : Instr :=
  if rst then .reset
  else if cmd = 0b00#2 then .nop
  else if cmd = 0b01#2 then .read settleLen
  else if cmd = 0b10#2 then .rsv2
  else .rsv3

/-- The micro-operation that the fields of a state word name (R62). -/
def microOp (p : Phase) (r c : Idx) : Instr :=
  match p with
  | .init => .init r c
  | .idle => .idle r c
  | .row => .row r c
  | .settle => .settle r c
  | .sample => .sample r c
  | .deassert => .deassert r c
  | .finish => .finish r c
  | .initFailed => .initFailed r c

/-- The number of bits of a word of each format (R58, R61). -/
def wordBits (sw : Nat) : Format → Nat
  | .hostcmd => sw + 3
  | .state => 7

/-- Decode a host word: `H[SW+2]` is `rst`, `H[SW+1:SW]` is `cmd`, `H[SW-1:0]` is `settle_len` (R58). -/
def decodeHost (sw H : Nat) : Except DecodeError Instr :=
  if H < 2 ^ (sw + 3) then
    .ok (hostCommand (wordField H (sw + 2) 1 == 1) (BitVec.ofNat 2 (wordField H sw 2)) (wordField H 0 sw))
  else .error .hostWordTooWide

/-- Decode a state word: `[6:4]` is the phase, `[3:2]` is `r`, `[1:0]` is `c` (R61). -/
def decodeState (w : Nat) : Except DecodeError Instr :=
  if w < 2 ^ 7 then
    .ok (microOp (Phase.ofCode (BitVec.ofNat 3 (wordField w 4 3))) (BitVec.ofNat 2 (wordField w 2 2))
      (BitVec.ofNat 2 (wordField w 0 2)))
  else .error .stateWordTooWide

/-- Decode a word of a given format. Which format a word has is known from the port it stands on (R57). -/
def decode (sw : Nat) (f : Format) (w : Nat) : Except DecodeError Instr :=
  match f with
  | .hostcmd => decodeHost sw w
  | .state => decodeState w

/-- `{rst, cmd, settle_len}` as a number (R58). -/
def hostBits (sw : Nat) (rst : Bool) (cmd : BitVec 2) (settleLen : Nat) : Nat :=
  rst.toNat * 2 ^ (sw + 2) + cmd.toNat * 2 ^ sw + settleLen % 2 ^ sw

/-- `{phase, r, c}` as a number (R61). -/
def stateBits (p : Phase) (r c : Idx) : Nat :=
  p.code.toNat * 2 ^ 4 + r.toNat * 2 ^ 2 + c.toNat

/-- The word of an instruction. Bits the spec says a command ignores are written 0, as R71 writes its lines. -/
def encode (sw : Nat) : Instr → Nat
  | .reset => hostBits sw true 0b00#2 0
  | .nop => hostBits sw false 0b00#2 0
  | .read settleLen => hostBits sw false 0b01#2 settleLen
  | .rsv2 => hostBits sw false 0b10#2 0
  | .rsv3 => hostBits sw false 0b11#2 0
  | .init r c => stateBits .init r c
  | .idle r c => stateBits .idle r c
  | .row r c => stateBits .row r c
  | .settle r c => stateBits .settle r c
  | .sample r c => stateBits .sample r c
  | .deassert r c => stateBits .deassert r c
  | .finish r c => stateBits .finish r c
  | .initFailed r c => stateBits .initFailed r c

/-- The format of a row of spec/opcode_table.json, from its width in whole bytes: STATE rows have 7 bits and HOSTCMD
rows 19 bits (log entry 13). -/
def tableFormat (nbits : Nat) : Format := if nbits ≤ 8 then .state else .hostcmd

/-- The instruction the decoder reads from a word of the opcode table, which is written for SW = 16 (R58). -/
def decodeTableWord (nbits w : Nat) : Option Instr := (decode 16 (tableFormat nbits) w).toOption

end Sys2Proof
end

