-- ==== Sys2Proof/Config.lean ====
section
/-! DEFINITION. The static parameters of an implementation (00_scope.md R7) and the free values: the inputs the world
draws at every edge (70_reset_and_hazards.md R138) and the pad level after a failed drive (10_state.md R27). -/

namespace Sys2Proof

/-- The static parameters, held constant while `rst = 0` (00_scope.md R7, 10_state.md R36). -/
structure Cfg where
  /-- `ROW_PRESENT`: bit `r` is 1 if row slot `r` has a driver. -/
  rowPresent : Lines
  /-- `COL_PRESENT`: bit `c` is 1 if column slot `c` has a sensor. -/
  colPresent : Lines
  /-- `LAYOUT` (20_memory.md R43). -/
  layout : Layout
  /-- `COL_FATAL_EN` (90_conflicts.md C1). -/
  colFatalEn : Bool
  deriving DecidableEq, Repr, Inhabited

namespace Config

/-- The default LAYOUT, the identity (20_memory.md R46). -/
def defaultLayout : Layout := 0xFEDCBA9876543210#64

/-- The default of the elaboration parameter SW (00_scope.md R7). -/
def defaultSw : Nat := 16

/-- The board of `State.reset`: every slot present, the default LAYOUT and the default `COL_FATAL_EN = 0`.
DESIGN CHOICE for the presence bits (log entry 1, unsafe): the spec leaves them to the board. -/
def defaultCfg : Cfg where
  rowPresent := 0b1111#4
  colPresent := 0b1111#4
  layout := defaultLayout
  colFatalEn := false

/-- Free draw of `rst` at an edge (R138, log entry 3). -/
opaque freeRst : Nat → Bool
/-- Free draw of `cmd` at an edge (R138, log entry 3). -/
opaque freeCmd : Nat → BitVec 2
/-- Free draw of `settle_len` at an edge, before its truncation to SW bits (R138, log entry 3). -/
opaque freeSettleLen : Nat → Nat
/-- Free draw of `drv_err` at an edge (R138, log entry 3). -/
opaque freeDrvErr : Nat → Bool
/-- Free draw of `col_in` at an edge (R138, U12, log entry 3). -/
opaque freeColIn : Nat → Lines
/-- Free draw of `col_err` at an edge (R138, log entry 3). -/
opaque freeColErr : Nat → Lines
/-- Free draw of `col_fatal` at an edge (R138, log entry 3). -/
opaque freeColFatal : Nat → Lines
/-- Free draw of the static parameters at an edge with `rst = 1` (R56, R127, log entry 4). -/
opaque freeCfg : Nat → Cfg
/-- Free draw, in one cycle, of the levels on row lines whose last drive failed (R27, U1, log entry 9). -/
opaque freePad : Nat → Lines

end Config

end Sys2Proof
end

