-- ==== Sys2Proof/Machine/State.lean ====
section
/-! DEFINITION. The state of the block (10_state.md R19), the inputs of one edge (R14), the reasons a step can stop, and
the state after reset. -/

namespace Sys2Proof.Machine

/-- The values on the input ports at one edge (10_state.md R14), the static parameters among them (R36). -/
structure Inputs where
  /-- `rst`, synchronous reset, active high. -/
  rst : Bool
  /-- `cmd[1:0]`, the host command. -/
  cmd : BitVec 2
  /-- `settle_len`; the port has SW bits, so a reader takes it modulo `2^SW` (`Inputs.settle`). -/
  settleLen : Nat
  /-- `drv_err`, the verdict on the row drive issued in this cycle. -/
  drvErr : Bool
  /-- `col_in[3:0]`, 1 = active. -/
  colIn : Lines
  /-- `col_err[3:0]`, 1 = the read of that column failed. -/
  colErr : Lines
  /-- `col_fatal[3:0]`, 1 = a fatal device failure on that column. -/
  colFatal : Lines
  /-- The static parameters as presented at this edge. -/
  cfg : Cfg
  deriving DecidableEq, Repr

/-- The state of the machine during one cycle. -/
structure State where
  /-- FSM phase (R20). -/
  phase : Phase
  /-- Current row index (R21). -/
  r : Idx
  /-- Current column index (R22). -/
  c : Idx
  /-- Scan accumulator (R24). -/
  acc : Mask
  /-- Last published ButtonMask (R25). -/
  maskQ : Mask
  /-- Commanded row levels (R26). -/
  rowQ : Lines
  /-- Settle down-counter, below `2^SW` (R28, log entry 2). -/
  cnt : Nat
  /-- Settle count latched at READ acceptance, below `2^SW` (R29, log entry 2). -/
  lenQ : Nat
  /-- A fatal column failure awaits report (R30). -/
  pendFatal : Bool
  /-- `mask_q` holds the result of the most recent READ (R31). -/
  validQ : Bool
  /-- One-cycle pulse: a READ just ended (R32). -/
  doneQ : Bool
  /-- Error code (R33, 30_encoding.md R64). -/
  errCodeQ : ErrCode
  /-- Row of the reported error (R33). -/
  errRowQ : Idx
  /-- Column of the last fatal column failure (R33). -/
  errColQ : Idx
  /-- The elaboration parameter SW (00_scope.md R7); no step writes it. -/
  sw : Nat
  /-- The static parameters presented at the last edge with `rst = 1` (R36, log entry 5). -/
  cfg : Cfg
  /-- Bit `r` is 1 if the last drive of row `r` failed, so that its pad level is unknown (R27, log entry 9). -/
  padUnknown : Lines
  /-- The first edge with `rst = 1` has happened (R39, log entry 8). -/
  launched : Bool
  /-- The inputs of the coming edges, the next edge's first; past the end inputs are free draws (log entry 3). -/
  pins : List Inputs
  /-- The number of edges so far: the index of the free draws, no register of the block (log entry 17). -/
  cycle : Nat
  deriving DecidableEq, Repr

/-- Why the machine stops with a fault. Both are stops 93_implementation_defined.md asks of a model that finds what no
rule produces; both are safe. -/
inductive Fault where
  /-- An edge with `rst = 0` finds one of the 93 unreachable state words (93 U7). Raised by every micro-operation and
  by every host command but RESET. Safe: the run stops where the spec says a model faults. -/
  | unreachableStateWord
  /-- An edge with `rst = 0` finds `err_code_q` at 101, 110 or 111 (93 U6). Raised by every micro-operation and by every
  host command but RESET. Safe: the run stops where the spec says a model faults. -/
  | reservedErrorCode
  deriving DecidableEq, Repr

/-- Why the model refuses a run. -/
inductive Refusal where
  /-- An instruction with no meaning yet. Raised by no arm of this model. Safe. -/
  | notModelled (mnemonic : String)
  /-- An edge with `rst = 0` before the first reset edge (93 U8, R39). Safe: nothing is claimed of such a run. -/
  | runNotBegunInReset
  /-- A static parameter differs, at an edge with `rst = 0`, from its value at the last edge with `rst = 1`
  (93 U3, R36). Safe: nothing is claimed of such a run. -/
  | staticParameterChanged
  /-- An edge with `rst = 0` under a LAYOUT that is no permutation of 0..15 (93 U4, R44). Safe. -/
  | layoutNotPermutation
  deriving DecidableEq, Repr

/-- The machine right after a reset edge (10_state.md R19), on a block of width `sw` wired as `cfg`. -/
def State.afterReset (sw : Nat) (cfg : Cfg) : State where
  phase := .init
  r := 0#2
  c := 0#2
  acc := 0x0000#16
  maskQ := 0x0000#16
  rowQ := 0b0000#4
  cnt := 0
  lenQ := 0
  pendFatal := false
  validQ := false
  doneQ := false
  errCodeQ := 0b000#3
  errRowQ := 0#2
  errColQ := 0#2
  sw := sw
  cfg := cfg
  padUnknown := 0b0000#4
  launched := true
  pins := []
  cycle := 0

/-- The machine right after reset, on the default block (log entries 1, 2, 3, 8, 9, 17). -/
def State.reset : State := State.afterReset Config.defaultSw Config.defaultCfg

end Sys2Proof.Machine
end

