-- ==== Sys2Proof/Machine/Operands.lean ====
section
/-! DEFINITION. How a rule reads its operands: one line of four, a LAYOUT cell, the one-hot value it names, and the
settle count on the port. -/

namespace Sys2Proof.Machine

/-- The row or column indices in ascending order (10_state.md R21, R22). -/
def idxs : List Idx := [0#2, 1#2, 2#2, 3#2]

/-- `v[k]` (00_scope.md R8). -/
def lineBit (v : Lines) (k : Idx) : Bool := v.getLsbD k.toNat

/-- `v` with bit `k` set to `b` and every other bit as it is. -/
def setLine (v : Lines) (k : Idx) (b : Bool) : Lines :=
  if b then v ||| (1#4 <<< k.toNat) else v &&& ~~~(1#4 <<< k.toNat)

/-- `LayoutRead(r, c)`: cell `k = 4*r + c` is `LAYOUT[4*k+3 : 4*k]` (20_memory.md R43, R45). -/
def layoutRead (layout : Layout) (r c : Idx) : BitVec 4 :=
  layout.extractLsb' (4 * (4 * r.toNat + c.toNat)) 4

/-- The sixteen cells in order of `k` (20_memory.md R41). -/
def layoutCells (layout : Layout) : List (BitVec 4) :=
  (List.range 16).map fun k => layout.extractLsb' (4 * k) 4

/-- The cells are pairwise distinct, so they form a permutation of 0..15 (20_memory.md R44). -/
def layoutWellFormed (layout : Layout) : Bool := decide (layoutCells layout).Nodup

/-- `1 << b` (00_scope.md R8, 30_encoding.md R69). -/
def oneHot (b : BitVec 4) : Mask := 1#16 <<< b.toNat

/-- The accumulator operand of `sample(r, c)`: `1 << LayoutRead(r, c)` (30_encoding.md R69). -/
def keyMask (layout : Layout) (r c : Idx) : Mask := oneHot (layoutRead layout r c)

/-- `settle_len` as the SW-bit port shows it, unsigned (30_encoding.md R68). -/
def Inputs.settle (sw : Nat) (i : Inputs) : Nat := i.settleLen % 2 ^ sw

/-- `ROW_PRESENT[r]`. -/
def hasRow (cfg : Cfg) (r : Idx) : Bool := lineBit cfg.rowPresent r

/-- `COL_PRESENT[c]`. -/
def hasCol (cfg : Cfg) (c : Idx) : Bool := lineBit cfg.colPresent c

/-- Column `c` is present and reported fatal while the option is enabled (60_exceptions.md R103, code 011). -/
def fatalColumn (cfg : Cfg) (i : Inputs) (c : Idx) : Bool :=
  hasCol cfg c && cfg.colFatalEn && lineBit i.colFatal c

/-- Column `c` is present and reads pressed: active, with neither kind of failure (41_scan_fsm.md R83). -/
def pressedColumn (cfg : Cfg) (i : Inputs) (c : Idx) : Bool :=
  hasCol cfg c && !lineBit i.colErr c && !lineBit i.colFatal c && lineBit i.colIn c

end Sys2Proof.Machine
end

