-- ==== Sys2Proof/Machine/Ops.lean ====
section
/-! DEFINITION. The shared operations: the inputs of an edge, what every edge with `rst = 0` does before its phase rule,
a row drive, taking the scan abort (the block's only exception), and where the next instruction is found. There is no
memory (20_memory.md R42) and no return from an exception: the FSM is already in IDLE (60_exceptions.md R110). -/

namespace Sys2Proof.Machine

/-- The input record of an edge that `pins` does not list: a free draw of every input, the static parameters held
unless the drawn `rst` is 1 (70_reset_and_hazards.md R127, R138; log entries 3, 4). -/
def State.drawn (s : State) : Inputs where
  rst := Config.freeRst s.cycle
  cmd := Config.freeCmd s.cycle
  settleLen := Config.freeSettleLen s.cycle
  drvErr := Config.freeDrvErr s.cycle
  colIn := Config.freeColIn s.cycle
  colErr := Config.freeColErr s.cycle
  colFatal := Config.freeColFatal s.cycle
  cfg := if Config.freeRst s.cycle then Config.freeCfg s.cycle else s.cfg

/-- The inputs sampled at the edge that ends the current cycle (10_state.md R14). -/
def State.now (s : State) : Inputs :=
  match s.pins with
  | i :: _ => i
  | [] => s.drawn

/-- The host presents these fields of a host word at the next edge (30_encoding.md R58); the rest of that edge's inputs
stays as it is. -/
def State.present (s : State) (rst : Bool) (cmd : BitVec 2) (settleLen : Nat) : State :=
  { s with pins := { s.now with rst := rst, cmd := cmd, settleLen := settleLen } :: s.pins.tail }

/-- The state at a given state word (30_encoding.md R61): the place of a jump to a program counter (10_state.md R23). -/
def State.atWord (s : State) (p : Phase) (r c : Idx) : State := { s with phase := p, r := r, c := c }

/-- What every edge with `rst = 0` does, whatever the phase: `done_q <- 0` (41_scan_fsm.md R78); and the edge's inputs
are used up. -/
def State.beginEdge (s : State) : State :=
  { s with doneQ := false, pins := s.pins.tail, cycle := s.cycle + 1 }

/-- The 35 state words that some run reaches after reset (30_encoding.md R63). -/
def reachableWord (p : Phase) (r c : Idx) : Bool :=
  match p with
  | .init => c == 0#2
  | .idle => r == 0#2 && c == 0#2
  | .row => c == 0#2
  | .settle => c == 0#2
  | .sample => true
  | .deassert => c == 0#2
  | .finish => r == 3#2 && c == 0#2
  | .initFailed => r == 0#2 && c == 0#2

/-- Codes 101, 110 and 111 are reserved (30_encoding.md R65). -/
def assignedErrCode (code : ErrCode) : Bool := decide (code.toNat ≤ 4)

/-- One edge with `rst = 0` under a phase rule. It is refused or faults exactly where 93_implementation_defined.md asks
for it: U8, U3, U4, U7, U6, in this order. -/
def edge (rule : Inputs → State → State) (s : State) : Host.Outcome State Fault Refusal :=
  if s.launched = false then .refused .runNotBegunInReset
  else if s.now.cfg ≠ s.cfg then .refused .staticParameterChanged
  else if layoutWellFormed s.cfg.layout = false then .refused .layoutNotPermutation
  else if reachableWord s.phase s.r s.c = false then .fault .unreachableStateWord
  else if assignedErrCode s.errCodeQ = false then .fault .reservedErrorCode
  else .next (rule s.now s.beginEdge)

/-- The row drive `drive(r, L)` of the current row (10_state.md R26): a successful one writes `row_q[r]`, and its pad
level is then known; a failed one leaves `row_q` and makes the pad level of the row unknown (R27). -/
def driveRow (level : Bool) (i : Inputs) (s : State) : State :=
  if i.drvErr then { s with padUnknown := setLine s.padUnknown s.r true }
  else { s with rowQ := setLine s.rowQ s.r level, padUnknown := setLine s.padUnknown s.r false }

/-- ROW_HIGH_FAIL (30_encoding.md R64). -/
def codeRowHighFail : ErrCode := 0b001#3
/-- ROW_LOW_FAIL (R64). -/
def codeRowLowFail : ErrCode := 0b010#3
/-- COL_FATAL (R64). -/
def codeColFatal : ErrCode := 0b011#3
/-- INIT_LOW_FAIL (R64). -/
def codeInitLowFail : ErrCode := 0b100#3

/-- `raise HwIoFail(code, row)`, the scan abort (60_exceptions.md R104). Control goes to IDLE; there is no handler. -/
def raiseHwIoFail (code : ErrCode) (row : Idx) (s : State) : State :=
  { s with
    errCodeQ := code
    errRowQ := row
    pendFatal := false
    doneQ := true
    r := 0#2
    c := 0#2
    phase := .idle }

/-- The host command on the ports at the next edge (30_encoding.md R59). -/
def State.hostInstr (s : State) : Instr := hostCommand s.now.rst s.now.cmd (s.now.settle s.sw)

/-- The host word on the ports at the next edge (R58). -/
def State.hostWord (s : State) : Nat := hostBits s.sw s.now.rst s.now.cmd s.now.settleLen

/-- The `state_word` port, `{phase, r, c}` (10_state.md R37). -/
def State.stateWord (s : State) : Nat := stateBits s.phase s.r s.c

/-- What the next edge performs: RESET if `rst = 1`, else the micro-operation the state word names (41_scan_fsm.md R78,
10_state.md R23). -/
def State.fetch (s : State) : Instr := if s.now.rst then .reset else microOp s.phase s.r s.c

/-- A quiet edge: no reset, NOP, and every environment input 0 (30_encoding.md R71). -/
def Inputs.quiet (cfg : Cfg) : Inputs where
  rst := false
  cmd := 0b00#2
  settleLen := 0
  drvErr := false
  colIn := 0b0000#4
  colErr := 0b0000#4
  colFatal := 0b0000#4
  cfg := cfg

/-- The next edge's listed inputs, or a quiet edge where none is listed. -/
def State.listed (s : State) : Inputs := s.pins.head?.getD (Inputs.quiet s.cfg)

/-- Put a host word of the opcode table (SW = 16) on the ports, in IDLE, the one phase that acts on a command
(40_commands.md R73; log entry 10). -/
def State.placeHostWord (s : State) (H : Nat) : State :=
  { s with
    phase := .idle
    r := 0#2
    c := 0#2
    pins :=
      { s.listed with
        rst := wordField H 18 1 == 1
        cmd := BitVec.ofNat 2 (wordField H 16 2)
        settleLen := wordField H 0 16 } :: s.pins.tail }

/-- Put the FSM at a state word, `rst` low and NOP on the ports (log entry 10). -/
def State.placeStateWord (s : State) (w : Nat) : State :=
  { s with
    phase := Phase.ofCode (BitVec.ofNat 3 (wordField w 4 3))
    r := BitVec.ofNat 2 (wordField w 2 2)
    c := BitVec.ofNat 2 (wordField w 0 2)
    pins := { s.listed with rst := false, cmd := 0b00#2 } :: s.pins.tail }

end Sys2Proof.Machine
end

