-- ==== Sys2Proof/Machine/CommandRules.lean ====
section
/-! DEFINITION. What a host command does when it acts: NOP, READ, RSV2 and RSV3 at an edge in IDLE (40_commands.md R74 to
R76), RESET at any edge (70_reset_and_hazards.md R122). Each takes the edge's inputs and the state after
`State.beginEdge`; RESET takes the state before the edge. -/

namespace Sys2Proof.Machine

/-- NOP writes no register (R74). -/
def nopRule (_ : Inputs) (s : State) : State := s

/-- RSV2 is identical to NOP (R76, R60). -/
def rsv2Rule (_ : Inputs) (s : State) : State := s

/-- RSV3 is identical to NOP (R76, R60). -/
def rsv3Rule (_ : Inputs) (s : State) : State := s

/-- READ starts one scan (R75). -/
def readRule (i : Inputs) (s : State) : State :=
  { s with
    acc := 0x0000#16
    lenQ := i.settle s.sw
    validQ := false
    errCodeQ := 0b000#3
    errRowQ := 0#2
    errColQ := 0#2
    pendFatal := false
    r := 0#2
    c := 0#2
    phase := .row
    doneQ := false }

/-- RESET: every register takes its reset value, whatever the phase (R122), and the static parameters of this edge are
the ones held from here on (R36, R56). The pad level of a row whose last drive failed stays unknown (R27). -/
def resetRule (i : Inputs) (s : State) : State :=
  { State.afterReset s.sw i.cfg with
    padUnknown := s.padUnknown
    pins := s.pins.tail
    cycle := s.cycle + 1 }

end Sys2Proof.Machine
end

