-- ==== Sys2Proof/Machine/PhaseRules.lean ====
section
/-! DEFINITION. The phase rules of 41_scan_fsm.md, R79 to R86, and the case over them of R78. Each takes the edge's
inputs and the state after `State.beginEdge`, and is read top to bottom as the spec's pseudocode is. -/

namespace Sys2Proof.Machine

/-- The end of R79: the next row, or IDLE after row 3. -/
def initAdvance (s : State) : State :=
  if s.r = 3#2 then { s with r := 0#2, phase := .idle } else { s with r := s.r + 1#2 }

/-- INIT: drive each present row low once (R79). A failure is no scan abort: it parks the FSM in INIT_FAILED. -/
def initRule (i : Inputs) (s : State) : State :=
  if hasRow s.cfg s.r then
    if i.drvErr then
      { driveRow false i s with errCodeQ := codeInitLowFail, errRowQ := s.r, r := 0#2, phase := .initFailed }
    else initAdvance (driveRow false i s)
  else initAdvance s

/-- IDLE: wait for a command (R80). -/
def idleRule (i : Inputs) (s : State) : State :=
  if i.cmd = 0b01#2 then readRule i s
  else if i.cmd = 0b10#2 then rsv2Rule i s
  else if i.cmd = 0b11#2 then rsv3Rule i s
  else nopRule i s

/-- ROW: skip an absent row, or assert a present one (R81). -/
def rowRule (i : Inputs) (s : State) : State :=
  if hasRow s.cfg s.r = false then
    if s.r = 3#2 then { s with phase := .finish } else { s with r := s.r + 1#2 }
  else if i.drvErr then raiseHwIoFail codeRowHighFail s.r (driveRow true i s)
  else { driveRow true i s with cnt := s.lenQ, phase := .settle }

/-- SETTLE: wait the settle delay (R82). -/
def settleRule (_ : Inputs) (s : State) : State :=
  if s.cnt = 0 then { s with phase := .sample } else { s with cnt := s.cnt - 1 }

/-- The end of R83: the next column, or DEASSERT after column 3. -/
def sampleAdvance (s : State) : State :=
  if s.c = 3#2 then { s with c := 0#2, phase := .deassert } else { s with c := s.c + 1#2 }

/-- SAMPLE: sample column `c` of row `r` and accumulate (R83). -/
def sampleRule (i : Inputs) (s : State) : State :=
  if fatalColumn s.cfg i s.c then
    { s with pendFatal := true, errColQ := s.c, c := 0#2, phase := .deassert }
  else if pressedColumn s.cfg i s.c then
    sampleAdvance { s with acc := s.acc ||| keyMask s.cfg.layout s.r s.c }
  else sampleAdvance s

/-- DEASSERT: drive row `r` low, then advance or report (R84). -/
def deassertRule (i : Inputs) (s : State) : State :=
  if i.drvErr then raiseHwIoFail codeRowLowFail s.r (driveRow false i s)
  else if s.pendFatal then raiseHwIoFail codeColFatal s.r (driveRow false i s)
  else if s.r = 3#2 then { driveRow false i s with phase := .finish }
  else { driveRow false i s with r := s.r + 1#2, phase := .row }

/-- FINISH: publish the result (R85). -/
def finishRule (_ : Inputs) (s : State) : State :=
  { s with maskQ := s.acc, validQ := true, doneQ := true, r := 0#2, phase := .idle }

/-- INIT_FAILED: stay until reset (R86). -/
def initFailedRule (_ : Inputs) (s : State) : State := s

/-- The case over the phase of R78: exactly one phase rule applies at an edge. -/
def phaseRule (i : Inputs) (s : State) : State :=
  match s.phase with
  | .init => initRule i s
  | .idle => idleRule i s
  | .row => rowRule i s
  | .settle => settleRule i s
  | .sample => sampleRule i s
  | .deassert => deassertRule i s
  | .finish => finishRule i s
  | .initFailed => initFailedRule i s

/-- A host command acts only in IDLE; in every other phase it is ignored and the phase rule alone decides the edge
(40_commands.md R73, R77). -/
def commandRule (rule : Inputs → State → State) (i : Inputs) (s : State) : State :=
  if s.phase = .idle then rule i s else phaseRule i s

end Sys2Proof.Machine
end

