-- ==== Sys2Proof/Machine/Commands.lean ====
section
/-! DEFINITION. The meanings of the host commands (format HOSTCMD): one edge at which the host presents that command and
every other input is as `State.now` says (log entry 10). -/

namespace Sys2Proof.Machine

/-- RESET, in every phase (70_reset_and_hazards.md R122): it overrides every phase rule, error and stop (60 R109). -/
def execReset (s : State) : Host.Outcome State Fault Refusal := .next (resetRule s.now s)

/-- NOP (40_commands.md R74, R77). -/
def execNop (s : State) : Host.Outcome State Fault Refusal :=
  edge (commandRule nopRule) (s.present false 0b00#2 0)

/-- READ with operand `settle_len` (R75, R77). -/
def execRead (settleLen : Nat) (s : State) : Host.Outcome State Fault Refusal :=
  edge (commandRule readRule) (s.present false 0b01#2 settleLen)

/-- RSV2 (R76, R77). -/
def execRsv2 (s : State) : Host.Outcome State Fault Refusal :=
  edge (commandRule rsv2Rule) (s.present false 0b10#2 0)

/-- RSV3 (R76, R77). -/
def execRsv3 (s : State) : Host.Outcome State Fault Refusal :=
  edge (commandRule rsv3Rule) (s.present false 0b11#2 0)

end Sys2Proof.Machine
end

