-- ==== Sys2Proof/Machine/MicroOps.lean ====
section
/-! DEFINITION. The meanings of the FSM micro-operations (format STATE): one edge with `rst = 0` of the machine at that
state word, with the inputs `State.now` gives (41_scan_fsm.md R78). -/

namespace Sys2Proof.Machine

/-- INIT (R79). -/
def execInit (r c : Idx) (s : State) : Host.Outcome State Fault Refusal := edge initRule (s.atWord .init r c)

/-- IDLE (R80). -/
def execIdle (r c : Idx) (s : State) : Host.Outcome State Fault Refusal := edge idleRule (s.atWord .idle r c)

/-- ROW (R81). -/
def execRow (r c : Idx) (s : State) : Host.Outcome State Fault Refusal := edge rowRule (s.atWord .row r c)

/-- SETTLE (R82). -/
def execSettle (r c : Idx) (s : State) : Host.Outcome State Fault Refusal := edge settleRule (s.atWord .settle r c)

/-- SAMPLE (R83). -/
def execSample (r c : Idx) (s : State) : Host.Outcome State Fault Refusal := edge sampleRule (s.atWord .sample r c)

/-- DEASSERT (R84). -/
def execDeassert (r c : Idx) (s : State) : Host.Outcome State Fault Refusal :=
  edge deassertRule (s.atWord .deassert r c)

/-- FINISH (R85). -/
def execFinish (r c : Idx) (s : State) : Host.Outcome State Fault Refusal := edge finishRule (s.atWord .finish r c)

/-- INIT_FAILED (R86). -/
def execInitFailed (r c : Idx) (s : State) : Host.Outcome State Fault Refusal :=
  edge initFailedRule (s.atWord .initFailed r c)

end Sys2Proof.Machine
end

