-- ==== Sys2Proof/Machine/Dispatch.lean ====
section
/-! DEFINITION. The dispatch over the instructions, one arm per constructor. -/

namespace Sys2Proof.Machine

def exec (i : Instr) (s : State) : Host.Outcome State Fault Refusal :=
  match i with
  | .reset => Sys2Proof.Machine.execReset s
  | .nop => Sys2Proof.Machine.execNop s
  | .read settleLen => Sys2Proof.Machine.execRead settleLen s
  | .rsv2 => Sys2Proof.Machine.execRsv2 s
  | .rsv3 => Sys2Proof.Machine.execRsv3 s
  | .init r c => Sys2Proof.Machine.execInit r c s
  | .idle r c => Sys2Proof.Machine.execIdle r c s
  | .row r c => Sys2Proof.Machine.execRow r c s
  | .settle r c => Sys2Proof.Machine.execSettle r c s
  | .sample r c => Sys2Proof.Machine.execSample r c s
  | .deassert r c => Sys2Proof.Machine.execDeassert r c s
  | .finish r c => Sys2Proof.Machine.execFinish r c s
  | .initFailed r c => Sys2Proof.Machine.execInitFailed r c s

end Sys2Proof.Machine
end

