-- ==== Sys2Proof/Machine/Step.lean ====
section
/-! DEFINITION. One step is one rising edge of `clk` (00_scope.md R10, 41_scan_fsm.md R78). -/

namespace Sys2Proof.Machine

/-- One edge: RESET if `rst = 1`, else the micro-operation of the state word (R78). -/
def step (s : State) : Host.Outcome State Fault Refusal := exec s.fetch s

/-- `s` with an instruction word of the opcode table where the next step finds it: a host word on the ports, a state
word in `(phase, r, c)` (log entry 10). -/
def State.withFetchWord (s : State) (nbits w : Nat) : State :=
  match tableFormat nbits with
  | .hostcmd => s.placeHostWord w
  | .state => s.placeStateWord w

end Sys2Proof.Machine
end

