-- ==== Sys2Proof/Machine/Flags.lean ====
section
/-! DEFINITION. The status flags of the block: `valid`, `done`, `busy` and `err`, and no other (10_state.md R40). -/

namespace Sys2Proof.Machine

/-- `busy` is 1 in every phase but IDLE and INIT_FAILED (R34). -/
def State.busy (s : State) : Bool := s.phase != .idle && s.phase != .initFailed

/-- `err` is 1 exactly when `err_code_q` is not NONE (R35). -/
def State.err (s : State) : Bool := s.errCodeQ != 0b000#3

/-- `valid` equals `valid_q` (R15). -/
def State.valid (s : State) : Bool := s.validQ

/-- `done` equals `done_q` (R15). -/
def State.done (s : State) : Bool := s.doneQ

end Sys2Proof.Machine
end

