-- ==== Sys2Proof/Machine/Outputs.lean ====
section
/-! DEFINITION. The output ports (10_state.md R15; the flags are in Flags.lean and `state_word` in Ops.lean), the
physical row levels (R27), the pin events (20_memory.md R51) and the observation of a scan (70_reset_and_hazards.md
R137). Reading any of them has no side effect (R50). -/

namespace Sys2Proof.Machine

/-- `row_out[3:0]` equals `row_q`. -/
def State.rowOut (s : State) : Lines := s.rowQ

/-- `drv_req`: the current cycle issues a row drive (R26). It reads the held parameters (log entry 12). -/
def State.drvReq (s : State) : Bool :=
  match s.phase with
  | .init => hasRow s.cfg s.r
  | .row => hasRow s.cfg s.r
  | .deassert => true
  | .idle => false
  | .settle => false
  | .sample => false
  | .finish => false
  | .initFailed => false

/-- `drv_row[1:0]` equals `r`. -/
def State.drvRow (s : State) : Idx := s.r

/-- `drv_lvl` is 1 in phase ROW, 0 otherwise. -/
def State.drvLvl (s : State) : Bool := s.phase == .row

/-- `mask[15:0]` equals `mask_q`. -/
def State.mask (s : State) : Mask := s.maskQ

/-- `err_code[2:0]` equals `err_code_q`. -/
def State.errCode (s : State) : ErrCode := s.errCodeQ

/-- `err_row[1:0]` equals `err_row_q`. -/
def State.errRow (s : State) : Idx := s.errRowQ

/-- `err_col[1:0]` equals `err_col_q`. -/
def State.errCol (s : State) : Idx := s.errColQ

/-- The physical level of row line `r` in the current cycle: the commanded level, or a fresh draw while the last drive
of the row has failed (R27, 93 U1). -/
def State.padLevel (s : State) (r : Idx) : Bool :=
  if lineBit s.padUnknown r then lineBit (Config.freePad s.cycle) r else lineBit s.rowQ r

/-- The externally visible events (R51). -/
inductive PinEvent where
  /-- A row drive, in an INIT, ROW or DEASSERT cycle. -/
  | drive (r : Idx) (level : Bool)
  /-- The sampling of a present column, in a SAMPLE cycle. -/
  | sample (r c : Idx)
  /-- The publication of a result, in FINISH. -/
  | publish (m : Mask)
  deriving DecidableEq, Repr

/-- The event of the edge that ends the current cycle: at most one (R51), and none under reset (R122, log entry 18).
An absent row issues no drive (R26) and an absent column's cycle reads no input (R53). -/
def State.event (s : State) : Option PinEvent :=
  if s.now.rst then none
  else
    match s.phase with
    | .init => if hasRow s.cfg s.r then some (.drive s.r false) else none
    | .row => if hasRow s.cfg s.r then some (.drive s.r true) else none
    | .sample => if hasCol s.cfg s.c then some (.sample s.r s.c) else none
    | .deassert => some (.drive s.r false)
    | .finish => some (.publish s.acc)
    | .idle => none
    | .settle => none
    | .initFailed => none

/-- What is observed of a scan, in its `done` cycle (R137). -/
structure Observation where
  mask : Mask
  valid : Bool
  errCode : ErrCode
  errRow : Idx
  errCol : Idx
  rowOut : Lines
  deriving DecidableEq, Repr

/-- The observation tuple of R137 in the current cycle. -/
def State.observe (s : State) : Observation where
  mask := s.mask
  valid := s.valid
  errCode := s.errCode
  errRow := s.errRow
  errCol := s.errCol
  rowOut := s.rowOut

end Sys2Proof.Machine
end

