-- ==== Sys2Proof/Safety.lean ====
section
/-! DEFINITION. The terms statements are made in: the duties of the host, what is always true of the registers, runs of
several edges, and the timetable of a scan. -/

namespace Sys2Proof.Machine

/-- The host has kept its duties up to the next edge: the run began in reset, the static parameters are held, and
LAYOUT is a permutation (70_reset_and_hazards.md R126, R127). -/
abbrev State.HostDuties (s : State) : Prop :=
  s.launched = true ∧ s.now.cfg = s.cfg ∧ layoutWellFormed s.cfg.layout = true

/-- The state word is one of the 35 reachable ones (30_encoding.md R63). -/
abbrev State.WordReachable (s : State) : Prop := reachableWord s.phase s.r s.c = true

/-- No reserved error code stands in `err_code_q` (R65). -/
abbrev State.CodeAssigned (s : State) : Prop := s.errCodeQ.toNat ≤ 4

/-- The counter and its latch fit SW bits (10_state.md R28, R29, 41_scan_fsm.md R88). -/
abbrev State.CountersFit (s : State) : Prop := s.cnt < 2 ^ s.sw ∧ s.lenQ < 2 ^ s.sw

/-- The status registers agree with the phase: `done` and `valid` only in IDLE (10_state.md R31, R32), an error code only
between scans, INIT_LOW_FAIL exactly in INIT_FAILED (41_scan_fsm.md R79, R86), a pending fatal column only in DEASSERT
(10_state.md R30). -/
abbrev State.StatusFitsPhase (s : State) : Prop :=
  (s.doneQ = true → s.phase = .idle) ∧
  (s.validQ = true → s.phase = .idle ∧ s.errCodeQ = 0b000#3) ∧
  (s.errCodeQ ≠ 0b000#3 → s.phase = .idle ∨ s.phase = .initFailed) ∧
  (s.errCodeQ = codeInitLowFail ↔ s.phase = .initFailed) ∧
  (s.pendFatal = true → s.phase = .deassert)

/-- The phases in which row `r` is commanded high (41_scan_fsm.md R81 to R84). -/
abbrev Phase.rowHigh (p : Phase) : Prop := p = .settle ∨ p = .sample ∨ p = .deassert

/-- While a row is being scanned it is present and commanded high (41_scan_fsm.md R84, corner cases), and the counter has
run out before the first sample (R82). -/
abbrev State.RowInScan (s : State) : Prop :=
  (Phase.rowHigh s.phase → hasRow s.cfg s.r = true ∧ lineBit s.rowQ s.r = true) ∧
  (s.phase = .sample ∨ s.phase = .deassert → s.cnt = 0)

/-- What every edge keeps. -/
abbrev State.Inv (s : State) : Prop :=
  s.WordReachable ∧ s.CodeAssigned ∧ s.CountersFit ∧ s.StatusFitsPhase ∧ s.RowInScan

/-- Exactly the row being scanned is commanded high (20_memory.md R54). -/
abbrev State.OnlyScannedRowHigh (s : State) : Prop :=
  s.rowQ = if s.phase = .settle ∨ s.phase = .sample ∨ s.phase = .deassert then 1#4 <<< s.r.toNat else 0#4

/-- The next edge is a failed deassert: a drive with `drv_err = 1` in phase DEASSERT (R54). -/
def State.deassertFails (s : State) : Bool := !s.now.rst && s.phase == .deassert && s.now.drvErr

/-- The number of rows commanded high, `popcount(row_q)`. -/
def State.rowsHigh (s : State) : Nat := (idxs.filter fun k => lineBit s.rowQ k).length

/-- `k` edges. -/
def run (k : Nat) (s : State) : Host.Outcome State Fault Refusal := Sys2Proof.core.run k s

/-- The listed inputs of the edge `k` edges from now; edge 0 is the next one. -/
def State.inputAt (s : State) (k : Nat) : Inputs := s.pins.getD k (Inputs.quiet s.cfg)

/-- The inputs of the next `n` edges are listed, and the host keeps out of reset and holds the static parameters. -/
abbrev State.Steady (s : State) (n : Nat) : Prop :=
  n ≤ s.pins.length ∧ ∀ i ∈ s.pins.take n, i.rst = false ∧ i.cfg = s.cfg

/-- The machine, launched on a legal configuration, is at the state word `(p, r, 0)` with an assigned error code. -/
abbrev State.At (s : State) (p : Phase) (r : Idx) : Prop :=
  s.phase = p ∧ s.r = r ∧ s.c = 0#2 ∧ s.CodeAssigned ∧ s.launched = true ∧ layoutWellFormed s.cfg.layout = true

/-- The pin events of `k` edges, in order (20_memory.md R51). -/
def trace : Nat → State → List PinEvent
  | 0, _ => []
  | k + 1, s =>
    match step s with
    | .next t => s.event.toList ++ trace k t
    | .fault _ => []
    | .refused _ => []

/-- `popcount(ROW_PRESENT)`. -/
def rowCount (cfg : Cfg) : Nat := (idxs.filter fun r => hasRow cfg r).length

/-- The cycles that row `r` takes in a scan with settle count `len` (70_reset_and_hazards.md R135). -/
def rowCycles (cfg : Cfg) (len : Nat) (r : Idx) : Nat := if hasRow cfg r then len + 7 else 1

/-- The ROW edge of row `r`, counted from the edge that accepts READ (41_scan_fsm.md R99, R100). -/
def rowEdge (cfg : Cfg) (len : Nat) (r : Idx) : Nat :=
  1 + ((idxs.filter fun k => decide (k.toNat < r.toNat)).map (rowCycles cfg len)).sum

/-- The edge of `sample(r, c)`, counted from the edge that accepts READ (R99). -/
def sampleEdge (cfg : Cfg) (len : Nat) (r c : Idx) : Nat := rowEdge cfg len r + len + 2 + c.toNat

/-- The DEASSERT edge of row `r`, counted from the edge that accepts READ (R99). -/
def deassertEdge (cfg : Cfg) (len : Nat) (r : Idx) : Nat := rowEdge cfg len r + len + 6

/-- The FINISH edge of a scan that succeeds, counted from the edge that accepts READ (R100). -/
def finishEdge (cfg : Cfg) (len : Nat) : Nat := 1 + rowCount cfg * (len + 7) + (4 - rowCount cfg)

/-- The OR of the masks of the keys for which `f` holds. -/
def orKeys (layout : Layout) (f : Idx → Idx → Bool) : Mask :=
  (idxs.flatMap fun r => idxs.map fun c => if f r c then keyMask layout r c else 0#16).foldl (· ||| ·) 0#16

/-- The result of a scan, from the inputs at its sample edges (41_scan_fsm.md R91). -/
def State.scanResult (s : State) (len : Nat) : Mask :=
  orKeys s.cfg.layout fun r c =>
    hasRow s.cfg r && pressedColumn s.cfg (s.inputAt (sampleEdge s.cfg len r c)) c

/-- Row `r` of the scan that READ starts at the next edge has no failure: neither its drives nor, where that is enabled, a
fatal column. -/
abbrev State.RowSucceeds (s : State) (len : Nat) (r : Idx) : Prop :=
  hasRow s.cfg r = true →
    (s.inputAt (rowEdge s.cfg len r)).drvErr = false ∧
    (s.inputAt (deassertEdge s.cfg len r)).drvErr = false ∧
    ∀ c ∈ idxs, fatalColumn s.cfg (s.inputAt (sampleEdge s.cfg len r c)) c = false

end Sys2Proof.Machine
end

