-- ==== Sys2Proof/Certificates/Slice0/Obligations.lean ====
section
/-! DEFINITION. The statements for the provers, each citing the rules of spec/ it formalises. -/

open Sys2Proof Sys2Proof.Machine

/-! ### Encodings (30_encoding.md) -/

/-- Decoding the word of a well-formed instruction, in its own format and at every SW, gives the instruction back
(R58 to R62). -/
def Obligations.DecodeEncodeRoundTrip : Prop :=
  ∀ (sw : Nat) (i : Instr), i.wf sw = true → decode sw i.format (encode sw i) = .ok i

/-- Every host word decodes, to the row of R59's table that its top three bits name, at every SW (R58, R60). -/
def Obligations.EveryHostWordNamesOneCommand : Prop :=
  ∀ sw H : Nat, H < 2 ^ (sw + 3) →
    decode sw .hostcmd H = .ok (
      if H.testBit (sw + 2) then .reset
      else if H.testBit (sw + 1) then (if H.testBit sw then .rsv3 else .rsv2)
      else (if H.testBit sw then .read (H % 2 ^ sw) else .nop))

/-- Every state word has one meaning, and 35 of the 128 are well-formed (R61, R62, R63). -/
def Obligations.StateWordsHaveOneMeaning : Prop :=
  (∀ w : Nat, w < 128 → ∃ i, decode 16 .state w = .ok i ∧ encode 16 i = w) ∧
  ((List.range 128).filter fun w => (decode 16 .state w).toOption.any (Instr.wf 16)).length = 35

/-- Words written out from the tables of R58, R59, R61 and R62 decode to what they stand for: all five commands and all
eight phase codes. -/
def Obligations.WrittenOutWordsDecode : Prop :=
  decode 16 .hostcmd 0b1000000000000000000 = .ok .reset ∧
  decode 16 .hostcmd 0b1010000000000000111 = .ok .reset ∧
  decode 16 .hostcmd 0b0000000000000000000 = .ok .nop ∧
  decode 16 .hostcmd 0b0010000000000000111 = .ok (.read 7) ∧
  decode 16 .hostcmd 0b0100000000000000000 = .ok .rsv2 ∧
  decode 16 .hostcmd 0b0110000000000000000 = .ok .rsv3 ∧
  decode 16 .state 0b0001100 = .ok (.init 3#2 0#2) ∧
  decode 16 .state 0b0010000 = .ok (.idle 0#2 0#2) ∧
  decode 16 .state 0b0101000 = .ok (.row 2#2 0#2) ∧
  decode 16 .state 0b0110100 = .ok (.settle 1#2 0#2) ∧
  decode 16 .state 0b1001110 = .ok (.sample 3#2 2#2) ∧
  decode 16 .state 0b1010100 = .ok (.deassert 1#2 0#2) ∧
  decode 16 .state 0b1101100 = .ok (.finish 3#2 0#2) ∧
  decode 16 .state 0b1110000 = .ok (.initFailed 0#2 0#2)

/-! ### The step -/

/-- A step runs the host command on the ports, and, with `rst = 0`, it runs the micro-operation of the state word: the
two views of one edge (41_scan_fsm.md R78, 40_commands.md R73, R77; that `exec` of a host command is the edge at which the
host presents it is the model's choice, log entry 10). -/
def Obligations.StepRunsTheDecodedInstruction : Prop :=
  ∀ (s : State) (i : Instr),
    (decode s.sw .hostcmd s.hostWord = .ok i → step s = exec i s) ∧
    (s.now.rst = false → decode s.sw .state s.stateWord = .ok i → step s = exec i s)

/-- Every edge has a successor: under reset always, and else while the host keeps its duties and the state word and error
code are ones some rule produces (R90, 70 R127). -/
def Obligations.EveryEdgeHasASuccessor : Prop :=
  ∀ s : State, (s.now.rst = true ∨ s.HostDuties ∧ s.WordReachable ∧ s.CodeAssigned) → ∃ t, step s = .next t

/-- A run that does not begin in reset is refused, and the first reset edge begins one (10 R39, 93 U8;
the flag that remembers it is the model's, log entry 8). -/
def Obligations.RunNotBegunInResetIsRefused : Prop :=
  ∀ s : State, s.launched = false →
    (s.now.rst = false → step s = .refused .runNotBegunInReset) ∧
    (s.now.rst = true → ∃ t, step s = .next t ∧ t.launched = true ∧ t.phase = .init)

/-- A static parameter that changes out of reset is refused, and a LAYOUT that is no permutation is refused
(10 R36, 93 U3; 20 R44, 93 U4). That the LAYOUT is refused at the edges out of reset is the model's choice, log entry 6;
which reason is answered where several stops meet is the order U8, U3, U4, U7, U6 of log entry 7, a choice too. -/
def Obligations.BadParametersAreRefused : Prop :=
  ∀ s : State, s.launched = true → s.now.rst = false →
    (s.now.cfg ≠ s.cfg → step s = .refused .staticParameterChanged) ∧
    (s.now.cfg = s.cfg → layoutWellFormed s.cfg.layout = false → step s = .refused .layoutNotPermutation)

/-- A micro-operation at one of the 93 unreachable state words faults (30 R63, 93 U7; log entry 7). -/
def Obligations.UnreachableStateWordFaults : Prop :=
  ∀ (s : State) (p : Phase) (r c : Idx), s.HostDuties → (microOp p r c).wf s.sw = false →
    exec (microOp p r c) s = .fault .unreachableStateWord

/-- An edge with `rst = 0` that finds a reserved error code faults (30 R65, 93 U6; log entry 7). -/
def Obligations.ReservedErrorCodeFaults : Prop :=
  ∀ s : State, s.HostDuties → s.WordReachable → s.now.rst = false → 0b100#3 < s.errCodeQ →
    step s = .fault .reservedErrorCode

/-! ### Host commands (40_commands.md, 70_reset_and_hazards.md) -/

/-- RESET, in every phase and whatever the other inputs, writes the reset value of every register; it takes the static
parameters of its edge (deduced, log entry 5), and a pad level that was unknown stays unknown (70 R122, 10 R19, R27,
R36). -/
def Obligations.ResetWritesEveryRegister : Prop :=
  ∀ s : State,
    exec .reset s = .next
      { phase := .init, r := 0#2, c := 0#2, acc := 0x0000#16, maskQ := 0x0000#16, rowQ := 0b0000#4, cnt := 0, lenQ := 0,
        pendFatal := false, validQ := false, doneQ := false, errCodeQ := 0b000#3, errRowQ := 0#2, errColQ := 0#2,
        sw := s.sw, cfg := s.now.cfg, padUnknown := s.padUnknown, launched := true, pins := s.pins.tail,
        cycle := s.cycle + 1 } ∧
    (s.now.rst = true → step s = exec .reset s)

/-- NOP in IDLE writes no register but `done_q <- 0` (R74). -/
def Obligations.NopInIdleOnlyClearsDone : Prop :=
  ∀ s : State, s.At .idle 0#2 → s.now.cfg = s.cfg →
    exec .nop s = .next { s with doneQ := false, pins := s.pins.tail, cycle := s.cycle + 1 }

/-- READ in IDLE starts a scan (R75). -/
def Obligations.ReadInIdleStartsAScan : Prop :=
  ∀ (s : State) (len : Nat), s.At .idle 0#2 → s.now.cfg = s.cfg → len < 2 ^ s.sw →
    exec (.read len) s = .next
      { s with
        acc := 0x0000#16, lenQ := len, validQ := false, errCodeQ := 0b000#3, errRowQ := 0#2, errColQ := 0#2,
        pendFatal := false, r := 0#2, c := 0#2, phase := .row, doneQ := false, pins := s.pins.tail,
        cycle := s.cycle + 1 }

/-- RSV2 and RSV3 are identical to NOP in every phase; in IDLE they complete and only clear `done_q` (R76). -/
def Obligations.ReservedCommandsActAsNop : Prop :=
  (∀ s : State, exec .rsv2 s = exec .nop s ∧ exec .rsv3 s = exec .nop s) ∧
  (∀ s : State, s.At .idle 0#2 → s.now.cfg = s.cfg →
    exec .rsv2 s = .next { s with doneQ := false, pins := s.pins.tail, cycle := s.cycle + 1 } ∧
    exec .rsv3 s = .next { s with doneQ := false, pins := s.pins.tail, cycle := s.cycle + 1 })

/-- In a phase other than IDLE a command is ignored, its operand too: the phase rule alone decides the edge (R77). -/
def Obligations.CommandOutsideIdleIsIgnored : Prop :=
  ∀ (s : State) (len : Nat), s.phase ≠ .idle →
    exec .nop s = exec (microOp s.phase s.r s.c) s ∧
    exec (.read len) s = exec (microOp s.phase s.r s.c) s ∧
    exec .rsv2 s = exec (microOp s.phase s.r s.c) s ∧
    exec .rsv3 s = exec (microOp s.phase s.r s.c) s

/-! ### Scan micro-operations (41_scan_fsm.md): each statement gives the whole next state, so what it does not name is
unchanged. The block has no memory (20_memory.md R42). `pins` and `cycle` are the model's own fields (log entries 3, 17):
every edge uses up its inputs. -/

/-- INIT drives a present row low and goes on, or parks in INIT_FAILED; an absent row is skipped (R79). -/
def Obligations.InitDrivesPresentRowLow : Prop :=
  ∀ (s : State) (r : Idx), s.HostDuties → s.CodeAssigned →
    exec (.init r 0#2) s = .next (
      if hasRow s.cfg r = true ∧ s.now.drvErr = true then
        { s with
          phase := .initFailed, r := 0#2, c := 0#2, errCodeQ := 0b100#3, errRowQ := r,
          padUnknown := setLine s.padUnknown r true, doneQ := false, pins := s.pins.tail, cycle := s.cycle + 1 }
      else
        { s with
          phase := if r = 3#2 then .idle else .init
          r := if r = 3#2 then 0#2 else r + 1#2
          c := 0#2
          rowQ := if hasRow s.cfg r then setLine s.rowQ r false else s.rowQ
          padUnknown := if hasRow s.cfg r then setLine s.padUnknown r false else s.padUnknown
          doneQ := false, pins := s.pins.tail, cycle := s.cycle + 1 })

/-- IDLE performs READ on `cmd = 01` and writes nothing but `done_q <- 0` on the other three codes (R80). -/
def Obligations.IdleActsOnReadOnly : Prop :=
  ∀ s : State, s.HostDuties → s.CodeAssigned →
    exec (.idle 0#2 0#2) s = .next (
      if s.now.cmd = 0b01#2 then
        { s with
          acc := 0x0000#16, lenQ := s.now.settleLen % 2 ^ s.sw, validQ := false, errCodeQ := 0b000#3, errRowQ := 0#2,
          errColQ := 0#2, pendFatal := false, r := 0#2, c := 0#2, phase := .row, doneQ := false, pins := s.pins.tail,
          cycle := s.cycle + 1 }
      else
        { s with
          phase := .idle, r := 0#2, c := 0#2, doneQ := false, pins := s.pins.tail, cycle := s.cycle + 1 })

/-- ROW skips an absent row, asserts a present one, or aborts with ROW_HIGH_FAIL (R81, 60 R104). -/
def Obligations.RowSkipsOrAsserts : Prop :=
  ∀ (s : State) (r : Idx), s.HostDuties → s.CodeAssigned →
    exec (.row r 0#2) s = .next (
      if hasRow s.cfg r = false then
        { s with
          phase := if r = 3#2 then .finish else .row
          r := if r = 3#2 then 3#2 else r + 1#2
          c := 0#2, doneQ := false, pins := s.pins.tail, cycle := s.cycle + 1 }
      else if s.now.drvErr = true then
        { s with
          phase := .idle, r := 0#2, c := 0#2, errCodeQ := 0b001#3, errRowQ := r, pendFatal := false, doneQ := true,
          padUnknown := setLine s.padUnknown r true, pins := s.pins.tail, cycle := s.cycle + 1 }
      else
        { s with
          phase := .settle, r := r, c := 0#2, rowQ := setLine s.rowQ r true, cnt := s.lenQ,
          padUnknown := setLine s.padUnknown r false, doneQ := false, pins := s.pins.tail, cycle := s.cycle + 1 })

/-- SETTLE counts down, and goes to SAMPLE at 0 (R82). -/
def Obligations.SettleCountsDown : Prop :=
  ∀ (s : State) (r : Idx), s.HostDuties → s.CodeAssigned →
    exec (.settle r 0#2) s = .next
      { s with
        phase := if s.cnt = 0 then .sample else .settle
        cnt := if s.cnt = 0 then 0 else s.cnt - 1
        r := r, c := 0#2, doneQ := false, pins := s.pins.tail, cycle := s.cycle + 1 }

/-- SAMPLE ORs in the bit of a pressed present column, ignores an absent or failing one, and leaves for DEASSERT on an
enabled fatal one (R83, 60 R105, R109). -/
def Obligations.SampleAccumulatesOneColumn : Prop :=
  ∀ (s : State) (r c : Idx), s.HostDuties → s.CodeAssigned →
    exec (.sample r c) s = .next (
      if s.cfg.colPresent.getLsbD c.toNat = true ∧ s.cfg.colFatalEn = true ∧ s.now.colFatal.getLsbD c.toNat = true then
        { s with
          phase := .deassert, r := r, c := 0#2, pendFatal := true, errColQ := c, doneQ := false, pins := s.pins.tail,
          cycle := s.cycle + 1 }
      else
        { s with
          phase := if c = 3#2 then .deassert else .sample
          r := r
          c := if c = 3#2 then 0#2 else c + 1#2
          acc :=
            if s.cfg.colPresent.getLsbD c.toNat = true ∧ s.now.colErr.getLsbD c.toNat = false ∧
                s.now.colFatal.getLsbD c.toNat = false ∧ s.now.colIn.getLsbD c.toNat = true then
              s.acc ||| (1#16 <<< (layoutRead s.cfg.layout r c).toNat)
            else s.acc
          doneQ := false, pins := s.pins.tail, cycle := s.cycle + 1 })

/-- DEASSERT drives the row low and advances; a failed drive aborts with ROW_LOW_FAIL and leaves the row commanded high,
a pending fatal column aborts with COL_FATAL after the row is low (R84, 60 R104, R109). -/
def Obligations.DeassertDrivesLowThenReports : Prop :=
  ∀ (s : State) (r : Idx), s.HostDuties → s.CodeAssigned →
    exec (.deassert r 0#2) s = .next (
      if s.now.drvErr = true then
        { s with
          phase := .idle, r := 0#2, c := 0#2, errCodeQ := 0b010#3, errRowQ := r, pendFatal := false, doneQ := true,
          padUnknown := setLine s.padUnknown r true, pins := s.pins.tail, cycle := s.cycle + 1 }
      else if s.pendFatal = true then
        { s with
          phase := .idle, r := 0#2, c := 0#2, errCodeQ := 0b011#3, errRowQ := r, pendFatal := false, doneQ := true,
          rowQ := setLine s.rowQ r false, padUnknown := setLine s.padUnknown r false, pins := s.pins.tail,
          cycle := s.cycle + 1 }
      else
        { s with
          phase := if r = 3#2 then .finish else .row
          r := if r = 3#2 then 3#2 else r + 1#2
          c := 0#2, rowQ := setLine s.rowQ r false, padUnknown := setLine s.padUnknown r false, doneQ := false,
          pins := s.pins.tail, cycle := s.cycle + 1 })

/-- FINISH publishes the accumulator (R85). -/
def Obligations.FinishPublishes : Prop :=
  ∀ s : State, s.HostDuties → s.CodeAssigned →
    exec (.finish 3#2 0#2) s = .next
      { s with
        maskQ := s.acc, validQ := true, doneQ := true, r := 0#2, c := 0#2, phase := .idle, pins := s.pins.tail,
        cycle := s.cycle + 1 }

/-- INIT_FAILED writes nothing but `done_q <- 0` (R86). -/
def Obligations.InitFailedHolds : Prop :=
  ∀ s : State, s.HostDuties → s.CodeAssigned →
    exec (.initFailed 0#2 0#2) s = .next
      { s with
        phase := .initFailed, r := 0#2, c := 0#2, doneQ := false, pins := s.pins.tail, cycle := s.cycle + 1 }

/-! ### Errors (60_exceptions.md) -/

/-- An edge with `rst = 0` after which `done` pulses, other than FINISH, is an abort of the scan: it has one of the three
causes of R103, records the code and the row, goes to IDLE, and leaves every register that R104 does not name (60 R103,
R104; that the `done` pulse outside FINISH means an abort is 10 R32). -/
def Obligations.AbortRecordsItsCause : Prop :=
  ∀ s t : State, step s = .next t → s.now.rst = false → t.doneQ = true → s.phase ≠ .finish →
    t.phase = .idle ∧ t.r = 0#2 ∧ t.c = 0#2 ∧ t.pendFatal = false ∧ t.errRowQ = s.r ∧
    t.acc = s.acc ∧ t.maskQ = s.maskQ ∧ t.validQ = s.validQ ∧ t.errColQ = s.errColQ ∧ t.lenQ = s.lenQ ∧ t.cnt = s.cnt ∧
    (s.phase = .row ∧ hasRow s.cfg s.r = true ∧ s.now.drvErr = true ∧ t.errCodeQ = 0b001#3 ∧ t.rowQ = s.rowQ ∨
     s.phase = .deassert ∧ s.now.drvErr = true ∧ t.errCodeQ = 0b010#3 ∧ t.rowQ = s.rowQ ∨
     s.phase = .deassert ∧ s.now.drvErr = false ∧ s.pendFatal = true ∧ t.errCodeQ = 0b011#3 ∧
       t.rowQ = setLine s.rowQ s.r false)

/-- The error registers change only at a READ acceptance, at reset, at an abort, at an INIT failure and, for `err_col_q`,
at the detection of an enabled fatal column (10 R33). -/
def Obligations.ErrorStatusWriters : Prop :=
  ∀ s t : State, step s = .next t → s.now.rst = false →
    (t.errCodeQ ≠ s.errCodeQ ∨ t.errRowQ ≠ s.errRowQ →
      s.phase = .idle ∧ s.now.cmd = 0b01#2 ∧ t.errCodeQ = 0b000#3 ∧ t.errRowQ = 0#2 ∨
      (s.phase = .row ∨ s.phase = .deassert) ∧ t.doneQ = true ∧ t.errRowQ = s.r ∨
      s.phase = .init ∧ t.phase = .initFailed ∧ t.errCodeQ = 0b100#3 ∧ t.errRowQ = s.r) ∧
    (t.errColQ ≠ s.errColQ →
      s.phase = .idle ∧ s.now.cmd = 0b01#2 ∧ t.errColQ = 0#2 ∨
      s.phase = .sample ∧ fatalColumn s.cfg s.now s.c = true ∧ t.errColQ = s.c)

/-! ### Invariants -/

/-- Every step keeps the invariant: a reachable state word, an assigned error code, counters within SW bits, status
registers that fit the phase, and a scanned row that is present and commanded high. That the counters are numbers below
`2^SW` is the model's form of an SW-bit register (log entry 2). -/
def Obligations.InvariantKeptByEveryStep : Prop :=
  ∀ s t : State, s.Inv → step s = .next t → t.Inv

/-- The invariant holds after reset, on every board and at every SW. `State.reset` itself has the board of log entry 1, a
choice of the model, which the second clause does not rest on. -/
def Obligations.InvariantHoldsAfterReset : Prop :=
  State.reset.Inv ∧ ∀ (sw : Nat) (cfg : Cfg), (State.afterReset sw cfg).Inv ∧ (State.afterReset sw cfg).OnlyScannedRowHigh

/-- Every step that is no failed deassert keeps: exactly the row being scanned is commanded high (20 R54). -/
def Obligations.OnlyTheScannedRowIsHigh : Prop :=
  ∀ s t : State, s.OnlyScannedRowHigh → s.deassertFails = false → step s = .next t → t.OnlyScannedRowHigh

/-- Along every run without a failed deassert, at most one row is commanded high, and none in INIT, IDLE, FINISH and
INIT_FAILED (20 R54). -/
def Obligations.AtMostOneRowHighAlongRuns : Prop :=
  ∀ (k : Nat) (s t : State), s.OnlyScannedRowHigh →
    (∀ j < k, ∀ u, run j s = .next u → u.deassertFails = false) → run k s = .next t →
    t.rowsHigh ≤ 1 ∧
    (t.phase = .init ∨ t.phase = .idle ∨ t.phase = .finish ∨ t.phase = .initFailed → t.rowQ = 0b0000#4)

/-- The complete transition relation of R90, and no other transition exists. -/
def Obligations.TransitionTableIsComplete : Prop :=
  ∀ s t : State, s.WordReachable → step s = .next t →
    let goes (p : Phase) (r c : Idx) : Prop := t.phase = p ∧ t.r = r ∧ t.c = c
    if s.now.rst then goes .init 0#2 0#2
    else
      match s.phase with
      | .init =>
        if hasRow s.cfg s.r && s.now.drvErr then goes .initFailed 0#2 0#2
        else if s.r = 3#2 then goes .idle 0#2 0#2
        else goes .init (s.r + 1#2) 0#2
      | .idle => if s.now.cmd = 0b01#2 then goes .row 0#2 0#2 else goes .idle 0#2 0#2
      | .row =>
        if !hasRow s.cfg s.r then
          if s.r = 3#2 then goes .finish 3#2 0#2 else goes .row (s.r + 1#2) 0#2
        else if s.now.drvErr then goes .idle 0#2 0#2
        else goes .settle s.r 0#2
      | .settle => if s.cnt = 0 then goes .sample s.r 0#2 else goes .settle s.r 0#2
      | .sample =>
        if fatalColumn s.cfg s.now s.c then goes .deassert s.r 0#2
        else if s.c = 3#2 then goes .deassert s.r 0#2
        else goes .sample s.r (s.c + 1#2)
      | .deassert =>
        if s.now.drvErr || s.pendFatal then goes .idle 0#2 0#2
        else if s.r = 3#2 then goes .finish 3#2 0#2
        else goes .row (s.r + 1#2) 0#2
      | .finish => goes .idle 0#2 0#2
      | .initFailed => goes .initFailed 0#2 0#2

/-- `mask_q` is written only by FINISH and by reset, and `valid_q` becomes 1 only together with it (10 R25, R31, 20 R49). -/
def Obligations.MaskWrittenOnlyByFinishOrReset : Prop :=
  ∀ s t : State, step s = .next t → s.now.rst = false →
    (s.phase = .finish → t.maskQ = s.acc ∧ t.validQ = true) ∧
    (s.phase ≠ .finish → t.maskQ = s.maskQ ∧ (t.validQ = true → s.validQ = true))

/-- The accumulator law: one edge clears it (READ), ORs into it the one bit of the sampled key, or leaves it
(10 R24, 41 R87, R94). -/
def Obligations.AccumulatorLaw : Prop :=
  ∀ s t : State, step s = .next t → s.now.rst = false →
    t.acc = if s.phase = .idle ∧ s.now.cmd = 0b01#2 then 0x0000#16
      else if s.phase = .sample ∧ fatalColumn s.cfg s.now s.c = false ∧ pressedColumn s.cfg s.now s.c = true then
        s.acc ||| keyMask s.cfg.layout s.r s.c
      else s.acc

/-- A bit of `row_q` changes only at the edge of a successful drive of that row, to the level that `drv_lvl` shows, or to
0 at reset (10 R26). -/
def Obligations.RowRegisterFollowsDrives : Prop :=
  ∀ (s t : State) (k : Idx), step s = .next t → s.now.rst = false →
    lineBit t.rowQ k = if s.drvReq && s.drvRow == k && !s.now.drvErr then s.drvLvl else lineBit s.rowQ k

/-- `cnt` is loaded at a successful drive-high and decremented, never below 0, in SETTLE; `len_q` is written only at a
READ acceptance (10 R28, R29, 41 R88). -/
def Obligations.CounterLaw : Prop :=
  ∀ s t : State, step s = .next t → s.now.rst = false →
    t.cnt = (if s.phase = .row ∧ hasRow s.cfg s.r = true ∧ s.now.drvErr = false then s.lenQ
      else if s.phase = .settle ∧ s.cnt ≠ 0 then s.cnt - 1 else s.cnt) ∧
    t.lenQ = if s.phase = .idle ∧ s.now.cmd = 0b01#2 then s.now.settleLen % 2 ^ s.sw else s.lenQ

/-- `done_q` is 1 after exactly FINISH and the aborts, `pend_fatal` exactly from an enabled fatal column to the end of the
DEASSERT that follows, wherever the invariant holds (10 R30, R32). -/
def Obligations.PulseAndPendingLaw : Prop :=
  ∀ s t : State, s.Inv → step s = .next t → s.now.rst = false →
    (t.doneQ = true ↔ s.phase = .finish ∨ t.phase = .idle ∧ (s.phase = .row ∨ s.phase = .deassert)) ∧
    (t.pendFatal = true ↔ s.phase = .sample ∧ fatalColumn s.cfg s.now s.c = true)

/-- No edge changes SW, and the static parameters the block holds change only at an edge with `rst = 1` (00 R7, 10 R36,
20 R56; that the block's copy is taken at the reset edge is deduced, log entry 5). -/
def Obligations.ParametersAreHeld : Prop :=
  ∀ s t : State, step s = .next t →
    t.sw = s.sw ∧ t.launched = true ∧ t.cfg = s.now.cfg ∧ (s.now.rst = false → t.cfg = s.cfg)

/-- A row line shows the commanded level unless its last drive failed. A drive decides it, reset and every other edge keep
it (10 R27, 93 U1; the flag that remembers it is the model's, log entry 9). -/
def Obligations.PadLevelIsKnownUnlessADriveFailed : Prop :=
  (∀ (s : State) (k : Idx), lineBit s.padUnknown k = false → s.padLevel k = lineBit s.rowQ k) ∧
  (∀ (s t : State) (k : Idx), step s = .next t →
    lineBit t.padUnknown k =
      if s.now.rst = false ∧ s.drvReq = true ∧ s.drvRow = k then s.now.drvErr else lineBit s.padUnknown k)

/-! ### LAYOUT and the mask (20_memory.md, 30_encoding.md) -/

/-- `LayoutRead` is the 4-bit field of R43 and R45, and the default LAYOUT is the identity (R46). -/
def Obligations.LayoutReadIsTheField : Prop :=
  (∀ (layout : Layout) (r c : Idx),
    (layoutRead layout r c).toNat = layout.toNat / 2 ^ (4 * (4 * r.toNat + c.toNat)) % 2 ^ 4) ∧
  ∀ r c : Idx, (layoutRead Config.defaultLayout r c).toNat = 4 * r.toNat + c.toNat

/-- Under a well-formed LAYOUT each key owns a bit of its own (R44, 41 R87). -/
def Obligations.DistinctKeysOwnDistinctBits : Prop :=
  ∀ (layout : Layout) (r c r' c' : Idx), layoutWellFormed layout = true → (r, c) ≠ (r', c') →
    keyMask layout r c &&& keyMask layout r' c' = 0x0000#16

/-- Bit `b` of the OR over a set of keys is 1 exactly when the key whose LAYOUT cell holds `b` is in the set (30 R66). -/
def Obligations.MaskBitBelongsToOneKey : Prop :=
  ∀ (layout : Layout) (f : Idx → Idx → Bool) (r c : Idx), layoutWellFormed layout = true →
    (orKeys layout f).getLsbD (layoutRead layout r c).toNat = f r c

/-! ### What an edge does not read -/

/-- In SAMPLE only bit `c` of the column inputs is read (41 R83, 10 R14). -/
def Obligations.OtherColumnsAreNotRead : Prop :=
  ∀ (s : State) (i j : Inputs) (rest : List Inputs), s.phase = .sample → i.rst = false → j.rst = false → i.cfg = j.cfg →
    lineBit i.colIn s.c = lineBit j.colIn s.c → lineBit i.colErr s.c = lineBit j.colErr s.c →
    lineBit i.colFatal s.c = lineBit j.colFatal s.c →
    step { s with pins := i :: rest } = step { s with pins := j :: rest }

/-- An absent column reads none of its inputs: its SAMPLE edge has one result whatever they are (41 R93). -/
def Obligations.AbsentColumnIsNeutral : Prop :=
  ∀ (s : State) (i j : Inputs) (rest : List Inputs), s.phase = .sample → hasCol s.cfg s.c = false →
    i.rst = false → j.rst = false → i.cfg = j.cfg →
    step { s with pins := i :: rest } = step { s with pins := j :: rest } ∧
    ∀ t, step { s with pins := i :: rest } = .next t → t.acc = s.acc ∧ t.pendFatal = s.pendFatal

/-- SETTLE, FINISH and INIT_FAILED read no input (41 R82, R85, R86); INIT, ROW and DEASSERT read none but `drv_err`, and
that only where the row is driven (R79, R81, R84); IDLE reads none but the host's. -/
def Obligations.PhasesReadOnlyTheirInputs : Prop :=
  ∀ (s : State) (i j : Inputs) (rest : List Inputs), i.rst = false → j.rst = false → i.cfg = j.cfg →
    (s.phase = .settle ∨ s.phase = .finish ∨ s.phase = .initFailed ∨
      (s.phase = .init ∨ s.phase = .row) ∧ (hasRow s.cfg s.r = false ∨ i.drvErr = j.drvErr) ∨
      s.phase = .deassert ∧ i.drvErr = j.drvErr ∨
      s.phase = .idle ∧ i.cmd = j.cmd ∧ i.settleLen = j.settleLen) →
    step { s with pins := i :: rest } = step { s with pins := j :: rest }

/-- Reset ignores every input but the static parameters it takes over (70 R122). -/
def Obligations.ResetReadsNoOtherInput : Prop :=
  ∀ (s : State) (i j : Inputs) (rest : List Inputs), i.rst = true → j.rst = true → i.cfg = j.cfg →
    step { s with pins := i :: rest } = step { s with pins := j :: rest }

/-! ### Runs -/

/-- SETTLE lasts exactly `cnt + 1` edges from its first one, with `cnt` counting down, then SAMPLE follows (41 R82). -/
def Obligations.SettleLastsOneMoreThanTheCount : Prop :=
  ∀ (s : State) (r : Idx), s.At .settle r → s.Steady (s.cnt + 1) →
    (∀ k ≤ s.cnt, ∃ u, run k s = .next u ∧ u.phase = .settle ∧ u.cnt = s.cnt - k) ∧
    ∃ t, run (s.cnt + 1) s = .next t ∧ t.phase = .sample ∧ t.r = r ∧ t.c = 0#2 ∧ t.rowQ = s.rowQ ∧ t.acc = s.acc

/-- Construction: from INIT with `r = 0`, if no present row fails, IDLE is reached after exactly four busy cycles with the
error status (code, row and column, 10 R33) and every row register as they were but for the rows driven low (70 R124,
41 R79). -/
def Obligations.ConstructionTakesFourEdges : Prop :=
  ∀ s : State, s.At .init 0#2 → s.Steady 4 →
    (∀ r ∈ idxs, hasRow s.cfg r = true → (s.inputAt r.toNat).drvErr = false) →
    (∀ k < 4, ∃ u, run k s = .next u ∧ u.phase = .init ∧ u.r.toNat = k ∧ u.busy = true) ∧
    ∃ t, run 4 s = .next t ∧ t.phase = .idle ∧ t.r = 0#2 ∧ t.errCodeQ = s.errCodeQ ∧ t.errRowQ = s.errRowQ ∧
      t.errColQ = s.errColQ ∧ t.busy = false ∧
      ∀ k : Idx, lineBit t.rowQ k = (lineBit s.rowQ k && !hasRow s.cfg k)

/-- Construction fails at the first present row whose drive fails: INIT_FAILED from that edge on, with INIT_LOW_FAIL and
the row, `busy = 0` and no `done` pulse (70 R124, 60 R106). -/
def Obligations.ConstructionFailsAtFirstFailedRow : Prop :=
  ∀ (s : State) (k : Idx), s.At .init 0#2 → s.Steady (k.toNat + 1) →
    (∀ r ∈ idxs, r.toNat < k.toNat → hasRow s.cfg r = true → (s.inputAt r.toNat).drvErr = false) →
    hasRow s.cfg k = true → (s.inputAt k.toNat).drvErr = true →
    ∃ t, run (k.toNat + 1) s = .next t ∧ t.phase = .initFailed ∧ t.errCodeQ = 0b100#3 ∧ t.errRowQ = k ∧
      t.busy = false ∧ t.err = true ∧ t.doneQ = false

/-- INIT_FAILED is left by nothing but reset: whatever the host and the environment present, every register stays
(41 R86, 40 R77). -/
def Obligations.InitFailedIsTerminal : Prop :=
  ∀ (s : State) (n : Nat), s.At .initFailed 0#2 → s.doneQ = false → s.Steady n →
    run n s = .next { s with pins := s.pins.drop n, cycle := s.cycle + n }

/-- IDLE holds all state under commands that are not READ, but for the `done` pulse (41 R80, 60 R120). -/
def Obligations.IdleHoldsWithoutRead : Prop :=
  ∀ (s : State) (n : Nat), s.At .idle 0#2 → s.Steady n → (∀ i ∈ s.pins.take n, i.cmd ≠ 0b01#2) →
    run n s = .next
      { s with doneQ := if n = 0 then s.doneQ else false, pins := s.pins.drop n, cycle := s.cycle + n }

/-- A scan in which no drive fails and no enabled fatal column is seen ends FINISH at the edge of R100, having been busy
all along, and publishes exactly the keys sampled pressed at the edges of R99 (41 R91). -/
def Obligations.ScanPublishesTheSampledKeys : Prop :=
  ∀ (s : State) (len : Nat), s.At .idle 0#2 → len = s.now.settleLen % 2 ^ s.sw → s.now.cmd = 0b01#2 →
    s.Steady (finishEdge s.cfg len + 1) → (∀ r ∈ idxs, s.RowSucceeds len r) →
    (∀ k, 1 ≤ k → k ≤ finishEdge s.cfg len → ∃ u, run k s = .next u ∧ u.busy = true ∧ u.doneQ = false ∧
      u.validQ = false ∧ u.maskQ = s.maskQ) ∧
    ∃ t, run (finishEdge s.cfg len + 1) s = .next t ∧ t.phase = .idle ∧ t.doneQ = true ∧ t.validQ = true ∧
      t.maskQ = s.scanResult len ∧ t.errCodeQ = 0b000#3 ∧ t.lenQ = len

/-- The pin events of such a scan, in order: for each present row in ascending order its drive-high, the samples of the
present columns in ascending order, and its drive-low; then the publication (20 R51, R52, R53). That the cycle of an
absent column is no sample event is deduced from R53, log entry 18. -/
def Obligations.ScanEventsAreInOrder : Prop :=
  ∀ (s : State) (len : Nat), s.At .idle 0#2 → len = s.now.settleLen % 2 ^ s.sw → s.now.cmd = 0b01#2 →
    s.Steady (finishEdge s.cfg len + 1) → (∀ r ∈ idxs, s.RowSucceeds len r) →
    trace (finishEdge s.cfg len + 1) s =
      ((idxs.filter fun r => hasRow s.cfg r).flatMap fun r =>
        [PinEvent.drive r true] ++ ((idxs.filter fun c => hasCol s.cfg c).map fun c => PinEvent.sample r c) ++
          [PinEvent.drive r false]) ++ [PinEvent.publish (s.scanResult len)]

/-- Every scan ends, whatever the environment does: within `4*(2^SW - 1) + 29` edges of its acceptance the block is back
in IDLE with `done = 1`; until then it is busy, shows the old mask and no `valid` (41 R100, 70 R129, R137). -/
def Obligations.EveryScanEndsWithinTheBound : Prop :=
  ∀ s : State, s.At .idle 0#2 → s.now.cmd = 0b01#2 → s.Steady (4 * (2 ^ s.sw - 1) + 30) →
    ∃ n t, 1 ≤ n ∧ n ≤ 4 * (2 ^ s.sw - 1) + 30 ∧ run n s = .next t ∧ t.phase = .idle ∧ t.doneQ = true ∧
      (t.validQ = true ↔ t.errCodeQ = 0b000#3) ∧ (t.validQ = false → t.maskQ = s.maskQ) ∧
      ∀ k, 1 ≤ k → k < n → ∃ u, run k s = .next u ∧ u.busy = true ∧ u.doneQ = false ∧ u.validQ = false ∧
        u.maskQ = s.maskQ

/-- A scan that starts with every row commanded low (`row_q = 0000`, 20 R54) aborts at the first row whose drive-high
fails: ROW_HIGH_FAIL with that row, `done` without `valid`, the old
mask, and every row commanded low, the earlier ones having been returned to low (41 R101, 60 R106, R107). -/
def Obligations.ScanAbortsAtFirstFailedRowHigh : Prop :=
  ∀ (s : State) (len : Nat) (k : Idx), s.At .idle 0#2 → len = s.now.settleLen % 2 ^ s.sw → s.now.cmd = 0b01#2 →
    s.rowQ = 0b0000#4 → s.Steady (rowEdge s.cfg len k + 1) →
    (∀ r ∈ idxs, r.toNat < k.toNat → s.RowSucceeds len r) → hasRow s.cfg k = true →
    (s.inputAt (rowEdge s.cfg len k)).drvErr = true →
    ∃ t, run (rowEdge s.cfg len k + 1) s = .next t ∧ t.phase = .idle ∧ t.doneQ = true ∧ t.validQ = false ∧
      t.errCodeQ = 0b001#3 ∧ t.errRowQ = k ∧ t.errColQ = 0#2 ∧ t.maskQ = s.maskQ ∧ t.rowQ = 0b0000#4 ∧
      t.padLevel k = lineBit (Config.freePad t.cycle) k

/-- A scan that starts with every row commanded low (`row_q = 0000`, 20 R54) and finds no enabled fatal column in the row
named here aborts at the first row whose drive-low fails: ROW_LOW_FAIL with that row, which stays commanded high with an
unknown pad level, and every other row commanded low (41 R101, 60 R106, 70 R133). -/
def Obligations.ScanAbortsAtFirstFailedRowLow : Prop :=
  ∀ (s : State) (len : Nat) (k : Idx), s.At .idle 0#2 → len = s.now.settleLen % 2 ^ s.sw → s.now.cmd = 0b01#2 →
    s.rowQ = 0b0000#4 → s.Steady (deassertEdge s.cfg len k + 1) →
    (∀ r ∈ idxs, r.toNat < k.toNat → s.RowSucceeds len r) → hasRow s.cfg k = true →
    (s.inputAt (rowEdge s.cfg len k)).drvErr = false →
    (∀ c ∈ idxs, fatalColumn s.cfg (s.inputAt (sampleEdge s.cfg len k c)) c = false) →
    (s.inputAt (deassertEdge s.cfg len k)).drvErr = true →
    ∃ t, run (deassertEdge s.cfg len k + 1) s = .next t ∧ t.phase = .idle ∧ t.doneQ = true ∧ t.validQ = false ∧
      t.errCodeQ = 0b010#3 ∧ t.errRowQ = k ∧ t.errColQ = 0#2 ∧ t.maskQ = s.maskQ ∧ t.rowQ = 1#4 <<< k.toNat ∧
      t.padLevel k = lineBit (Config.freePad t.cycle) k

/-- With every row absent a scan takes six edges from its acceptance on and publishes 0x0000, whatever the environment
does (41 R92, R100). -/
def Obligations.UnwiredRowsReadZero : Prop :=
  ∀ s : State, s.At .idle 0#2 → s.cfg.rowPresent = 0b0000#4 → s.now.cmd = 0b01#2 → s.Steady 6 →
    ∃ t, run 6 s = .next t ∧ t.phase = .idle ∧ t.doneQ = true ∧ t.validQ = true ∧ t.maskQ = 0x0000#16

/-- A key that alone is wired, and that shows on its column exactly while its row is commanded high, is published as
exactly its LAYOUT bit; that window is the `len_q + 6` cycles from the drive-high to the drive-low (41 R95, R99). -/
def Obligations.SingleKeyIsPublishedAlone : Prop :=
  ∀ (s : State) (len : Nat) (r c : Idx), s.At .idle 0#2 → len = s.now.settleLen % 2 ^ s.sw → s.now.cmd = 0b01#2 →
    s.rowQ = 0b0000#4 → s.cfg.rowPresent = 1#4 <<< r.toNat → s.cfg.colPresent = 1#4 <<< c.toNat →
    s.Steady (finishEdge s.cfg len + 1) →
    (∀ i ∈ s.pins, i.drvErr = false ∧ i.colErr = 0b0000#4 ∧ i.colFatal = 0b0000#4) →
    (∀ k ≤ finishEdge s.cfg len, lineBit (s.inputAt k).colIn c =
      decide (rowEdge s.cfg len r < k ∧ k ≤ rowEdge s.cfg len r + len + 6)) →
    (∀ k ≤ finishEdge s.cfg len, ∃ u, run k s = .next u ∧
      lineBit u.rowQ r = decide (rowEdge s.cfg len r < k ∧ k ≤ rowEdge s.cfg len r + len + 6)) ∧
    ∃ t, run (finishEdge s.cfg len + 1) s = .next t ∧ t.phase = .idle ∧ t.validQ = true ∧
      t.maskQ = 1#16 <<< (layoutRead s.cfg.layout r c).toNat

/-- A scan in which only the row being scanned is commanded high (20 R54: no earlier deassert has failed, so no row is
stuck high as in 70 R133) leaves, when it ends, every row commanded low, but for the row whose drive-low failed: that one
stays high (41 R101, 90_conflicts.md C2). -/
def Obligations.RowLevelsAtTheEndOfAScan : Prop :=
  ∀ s t : State, s.OnlyScannedRowHigh → step s = .next t → s.busy = true → s.phase ≠ .init → t.phase = .idle →
    s.now.rst = false ∧ t.doneQ = true ∧
    t.rowQ = if t.errCodeQ = 0b010#3 ∧ s.phase = .deassert then 1#4 <<< t.errRowQ.toNat else 0b0000#4

/-- With `cmd = 01` held, FINISH is followed by exactly one IDLE cycle, which shows the result, and then by the next scan
(70 R134). -/
def Obligations.BackToBackScans : Prop :=
  ∀ s : State, s.At .finish 3#2 → s.Steady 2 → (s.inputAt 1).cmd = 0b01#2 →
    (∃ u, run 1 s = .next u ∧ u.phase = .idle ∧ u.doneQ = true ∧ u.validQ = true ∧ u.maskQ = s.acc) ∧
    ∃ t, run 2 s = .next t ∧ t.phase = .row ∧ t.r = 0#2 ∧ t.acc = 0x0000#16 ∧ t.validQ = false ∧ t.maskQ = s.acc
end

