-- ==== Sys2Proof/Laws/Decode.lean ====
section
/-! SUPPORT. The fields of the words the encoder builds (30_encoding.md R58, R61). -/

namespace Sys2Proof

@[simp] theorem Phase.ofCode_code (p : Phase) : Phase.ofCode p.code = p := by cases p <;> rfl

@[simp] theorem Phase.code_ofCode (b : BitVec 3) : (Phase.ofCode b).code = b := by revert b; decide

theorem hostBits_lt (sw : Nat) (rst : Bool) (cmd : BitVec 2) (len : Nat) : hostBits sw rst cmd len < 2 ^ (sw + 3) := by
  have hl : len % 2 ^ sw < 2 ^ sw := Nat.mod_lt _ (Nat.two_pow_pos sw)
  have hc : cmd.toNat * 2 ^ sw ≤ 3 * 2 ^ sw := Nat.mul_le_mul_right _ (by have := cmd.isLt; omega)
  have hr : rst.toNat * 2 ^ (sw + 2) ≤ 2 ^ (sw + 2) := by
    simpa using Nat.mul_le_mul_right (2 ^ (sw + 2)) (Bool.toNat_le rst)
  have h2 : 2 ^ (sw + 2) = 4 * 2 ^ sw := by ring
  have h3 : 2 ^ (sw + 3) = 8 * 2 ^ sw := by ring
  unfold hostBits
  omega

/-- `H[SW+2:SW]`, the opcode of a host word, is `{rst, cmd}`. -/
theorem hostBits_div (sw : Nat) (rst : Bool) (cmd : BitVec 2) (len : Nat) :
    hostBits sw rst cmd len / 2 ^ sw = rst.toNat * 4 + cmd.toNat := by
  have hl : len % 2 ^ sw < 2 ^ sw := Nat.mod_lt _ (Nat.two_pow_pos sw)
  have h : hostBits sw rst cmd len = (rst.toNat * 4 + cmd.toNat) * 2 ^ sw + len % 2 ^ sw := by
    unfold hostBits
    ring
  rw [h, Nat.add_comm, Nat.add_mul_div_right _ _ (Nat.two_pow_pos sw), Nat.div_eq_of_lt hl, Nat.zero_add]

theorem wordField_hostBits_rst (sw : Nat) (rst : Bool) (cmd : BitVec 2) (len : Nat) :
    wordField (hostBits sw rst cmd len) (sw + 2) 1 = rst.toNat := by
  have hc := cmd.isLt
  rw [wordField, pow_add, ← Nat.div_div_eq_div_mul, hostBits_div]
  cases rst <;> simp <;> omega

theorem wordField_hostBits_cmd (sw : Nat) (rst : Bool) (cmd : BitVec 2) (len : Nat) :
    wordField (hostBits sw rst cmd len) sw 2 = cmd.toNat := by
  have hc := cmd.isLt
  rw [wordField, hostBits_div]
  cases rst <;> simp <;> omega

theorem wordField_hostBits_len (sw : Nat) (rst : Bool) (cmd : BitVec 2) (len : Nat) :
    wordField (hostBits sw rst cmd len) 0 sw = len % 2 ^ sw := by
  have h : hostBits sw rst cmd len = len % 2 ^ sw + 2 ^ sw * (rst.toNat * 4 + cmd.toNat) := by
    unfold hostBits
    ring
  rw [wordField, pow_zero, Nat.div_one, h, Nat.add_mul_mod_self_left, Nat.mod_mod]

theorem stateBits_lt (p : Phase) (r c : Idx) : stateBits p r c < 2 ^ 7 := by
  have hp := p.code.isLt
  have hr := r.isLt
  have hc := c.isLt
  unfold stateBits
  omega

theorem wordField_stateBits_phase (p : Phase) (r c : Idx) : wordField (stateBits p r c) 4 3 = p.code.toNat := by
  have hp := p.code.isLt
  have hr := r.isLt
  have hc := c.isLt
  unfold wordField stateBits
  omega

theorem wordField_stateBits_r (p : Phase) (r c : Idx) : wordField (stateBits p r c) 2 2 = r.toNat := by
  have hr := r.isLt
  have hc := c.isLt
  unfold wordField stateBits
  omega

theorem wordField_stateBits_c (p : Phase) (r c : Idx) : wordField (stateBits p r c) 0 2 = c.toNat := by
  have hc := c.isLt
  unfold wordField stateBits
  omega

end Sys2Proof
end

