-- ==== Sys2Proof/Laws/State.lean ====
section
/-! SUPPORT. One lemma per field per update of State, true by `rfl`, so that no proof unfolds a record update. -/

namespace Sys2Proof.Machine

/-! ### `State.present` -/

@[simp] theorem State.present_phase (s : State) (rst : Bool) (cmd : BitVec 2) (len : Nat) : (s.present rst cmd len).phase = s.phase := rfl
@[simp] theorem State.present_r (s : State) (rst : Bool) (cmd : BitVec 2) (len : Nat) : (s.present rst cmd len).r = s.r := rfl
@[simp] theorem State.present_c (s : State) (rst : Bool) (cmd : BitVec 2) (len : Nat) : (s.present rst cmd len).c = s.c := rfl
@[simp] theorem State.present_acc (s : State) (rst : Bool) (cmd : BitVec 2) (len : Nat) : (s.present rst cmd len).acc = s.acc := rfl
@[simp] theorem State.present_maskQ (s : State) (rst : Bool) (cmd : BitVec 2) (len : Nat) : (s.present rst cmd len).maskQ = s.maskQ := rfl
@[simp] theorem State.present_rowQ (s : State) (rst : Bool) (cmd : BitVec 2) (len : Nat) : (s.present rst cmd len).rowQ = s.rowQ := rfl
@[simp] theorem State.present_cnt (s : State) (rst : Bool) (cmd : BitVec 2) (len : Nat) : (s.present rst cmd len).cnt = s.cnt := rfl
@[simp] theorem State.present_lenQ (s : State) (rst : Bool) (cmd : BitVec 2) (len : Nat) : (s.present rst cmd len).lenQ = s.lenQ := rfl
@[simp] theorem State.present_pendFatal (s : State) (rst : Bool) (cmd : BitVec 2) (len : Nat) : (s.present rst cmd len).pendFatal = s.pendFatal := rfl
@[simp] theorem State.present_validQ (s : State) (rst : Bool) (cmd : BitVec 2) (len : Nat) : (s.present rst cmd len).validQ = s.validQ := rfl
@[simp] theorem State.present_doneQ (s : State) (rst : Bool) (cmd : BitVec 2) (len : Nat) : (s.present rst cmd len).doneQ = s.doneQ := rfl
@[simp] theorem State.present_errCodeQ (s : State) (rst : Bool) (cmd : BitVec 2) (len : Nat) : (s.present rst cmd len).errCodeQ = s.errCodeQ := rfl
@[simp] theorem State.present_errRowQ (s : State) (rst : Bool) (cmd : BitVec 2) (len : Nat) : (s.present rst cmd len).errRowQ = s.errRowQ := rfl
@[simp] theorem State.present_errColQ (s : State) (rst : Bool) (cmd : BitVec 2) (len : Nat) : (s.present rst cmd len).errColQ = s.errColQ := rfl
@[simp] theorem State.present_sw (s : State) (rst : Bool) (cmd : BitVec 2) (len : Nat) : (s.present rst cmd len).sw = s.sw := rfl
@[simp] theorem State.present_cfg (s : State) (rst : Bool) (cmd : BitVec 2) (len : Nat) : (s.present rst cmd len).cfg = s.cfg := rfl
@[simp] theorem State.present_padUnknown (s : State) (rst : Bool) (cmd : BitVec 2) (len : Nat) : (s.present rst cmd len).padUnknown = s.padUnknown := rfl
@[simp] theorem State.present_launched (s : State) (rst : Bool) (cmd : BitVec 2) (len : Nat) : (s.present rst cmd len).launched = s.launched := rfl
@[simp] theorem State.present_pins (s : State) (rst : Bool) (cmd : BitVec 2) (len : Nat) : (s.present rst cmd len).pins = { s.now with rst := rst, cmd := cmd, settleLen := len } :: s.pins.tail := rfl
@[simp] theorem State.present_cycle (s : State) (rst : Bool) (cmd : BitVec 2) (len : Nat) : (s.present rst cmd len).cycle = s.cycle := rfl

/-! ### `State.atWord` -/

@[simp] theorem State.atWord_phase (s : State) (p : Phase) (a b : Idx) : (s.atWord p a b).phase = p := rfl
@[simp] theorem State.atWord_r (s : State) (p : Phase) (a b : Idx) : (s.atWord p a b).r = a := rfl
@[simp] theorem State.atWord_c (s : State) (p : Phase) (a b : Idx) : (s.atWord p a b).c = b := rfl
@[simp] theorem State.atWord_acc (s : State) (p : Phase) (a b : Idx) : (s.atWord p a b).acc = s.acc := rfl
@[simp] theorem State.atWord_maskQ (s : State) (p : Phase) (a b : Idx) : (s.atWord p a b).maskQ = s.maskQ := rfl
@[simp] theorem State.atWord_rowQ (s : State) (p : Phase) (a b : Idx) : (s.atWord p a b).rowQ = s.rowQ := rfl
@[simp] theorem State.atWord_cnt (s : State) (p : Phase) (a b : Idx) : (s.atWord p a b).cnt = s.cnt := rfl
@[simp] theorem State.atWord_lenQ (s : State) (p : Phase) (a b : Idx) : (s.atWord p a b).lenQ = s.lenQ := rfl
@[simp] theorem State.atWord_pendFatal (s : State) (p : Phase) (a b : Idx) : (s.atWord p a b).pendFatal = s.pendFatal := rfl
@[simp] theorem State.atWord_validQ (s : State) (p : Phase) (a b : Idx) : (s.atWord p a b).validQ = s.validQ := rfl
@[simp] theorem State.atWord_doneQ (s : State) (p : Phase) (a b : Idx) : (s.atWord p a b).doneQ = s.doneQ := rfl
@[simp] theorem State.atWord_errCodeQ (s : State) (p : Phase) (a b : Idx) : (s.atWord p a b).errCodeQ = s.errCodeQ := rfl
@[simp] theorem State.atWord_errRowQ (s : State) (p : Phase) (a b : Idx) : (s.atWord p a b).errRowQ = s.errRowQ := rfl
@[simp] theorem State.atWord_errColQ (s : State) (p : Phase) (a b : Idx) : (s.atWord p a b).errColQ = s.errColQ := rfl
@[simp] theorem State.atWord_sw (s : State) (p : Phase) (a b : Idx) : (s.atWord p a b).sw = s.sw := rfl
@[simp] theorem State.atWord_cfg (s : State) (p : Phase) (a b : Idx) : (s.atWord p a b).cfg = s.cfg := rfl
@[simp] theorem State.atWord_padUnknown (s : State) (p : Phase) (a b : Idx) : (s.atWord p a b).padUnknown = s.padUnknown := rfl
@[simp] theorem State.atWord_launched (s : State) (p : Phase) (a b : Idx) : (s.atWord p a b).launched = s.launched := rfl
@[simp] theorem State.atWord_pins (s : State) (p : Phase) (a b : Idx) : (s.atWord p a b).pins = s.pins := rfl
@[simp] theorem State.atWord_cycle (s : State) (p : Phase) (a b : Idx) : (s.atWord p a b).cycle = s.cycle := rfl

/-! ### `State.beginEdge` -/

@[simp] theorem State.beginEdge_phase (s : State) : (s.beginEdge).phase = s.phase := rfl
@[simp] theorem State.beginEdge_r (s : State) : (s.beginEdge).r = s.r := rfl
@[simp] theorem State.beginEdge_c (s : State) : (s.beginEdge).c = s.c := rfl
@[simp] theorem State.beginEdge_acc (s : State) : (s.beginEdge).acc = s.acc := rfl
@[simp] theorem State.beginEdge_maskQ (s : State) : (s.beginEdge).maskQ = s.maskQ := rfl
@[simp] theorem State.beginEdge_rowQ (s : State) : (s.beginEdge).rowQ = s.rowQ := rfl
@[simp] theorem State.beginEdge_cnt (s : State) : (s.beginEdge).cnt = s.cnt := rfl
@[simp] theorem State.beginEdge_lenQ (s : State) : (s.beginEdge).lenQ = s.lenQ := rfl
@[simp] theorem State.beginEdge_pendFatal (s : State) : (s.beginEdge).pendFatal = s.pendFatal := rfl
@[simp] theorem State.beginEdge_validQ (s : State) : (s.beginEdge).validQ = s.validQ := rfl
@[simp] theorem State.beginEdge_doneQ (s : State) : (s.beginEdge).doneQ = false := rfl
@[simp] theorem State.beginEdge_errCodeQ (s : State) : (s.beginEdge).errCodeQ = s.errCodeQ := rfl
@[simp] theorem State.beginEdge_errRowQ (s : State) : (s.beginEdge).errRowQ = s.errRowQ := rfl
@[simp] theorem State.beginEdge_errColQ (s : State) : (s.beginEdge).errColQ = s.errColQ := rfl
@[simp] theorem State.beginEdge_sw (s : State) : (s.beginEdge).sw = s.sw := rfl
@[simp] theorem State.beginEdge_cfg (s : State) : (s.beginEdge).cfg = s.cfg := rfl
@[simp] theorem State.beginEdge_padUnknown (s : State) : (s.beginEdge).padUnknown = s.padUnknown := rfl
@[simp] theorem State.beginEdge_launched (s : State) : (s.beginEdge).launched = s.launched := rfl
@[simp] theorem State.beginEdge_pins (s : State) : (s.beginEdge).pins = s.pins.tail := rfl
@[simp] theorem State.beginEdge_cycle (s : State) : (s.beginEdge).cycle = s.cycle + 1 := rfl

/-! ### `raiseHwIoFail` -/

@[simp] theorem raiseHwIoFail_phase (code : ErrCode) (row : Idx) (s : State) : (raiseHwIoFail code row s).phase = .idle := rfl
@[simp] theorem raiseHwIoFail_r (code : ErrCode) (row : Idx) (s : State) : (raiseHwIoFail code row s).r = 0#2 := rfl
@[simp] theorem raiseHwIoFail_c (code : ErrCode) (row : Idx) (s : State) : (raiseHwIoFail code row s).c = 0#2 := rfl
@[simp] theorem raiseHwIoFail_acc (code : ErrCode) (row : Idx) (s : State) : (raiseHwIoFail code row s).acc = s.acc := rfl
@[simp] theorem raiseHwIoFail_maskQ (code : ErrCode) (row : Idx) (s : State) : (raiseHwIoFail code row s).maskQ = s.maskQ := rfl
@[simp] theorem raiseHwIoFail_rowQ (code : ErrCode) (row : Idx) (s : State) : (raiseHwIoFail code row s).rowQ = s.rowQ := rfl
@[simp] theorem raiseHwIoFail_cnt (code : ErrCode) (row : Idx) (s : State) : (raiseHwIoFail code row s).cnt = s.cnt := rfl
@[simp] theorem raiseHwIoFail_lenQ (code : ErrCode) (row : Idx) (s : State) : (raiseHwIoFail code row s).lenQ = s.lenQ := rfl
@[simp] theorem raiseHwIoFail_pendFatal (code : ErrCode) (row : Idx) (s : State) : (raiseHwIoFail code row s).pendFatal = false := rfl
@[simp] theorem raiseHwIoFail_validQ (code : ErrCode) (row : Idx) (s : State) : (raiseHwIoFail code row s).validQ = s.validQ := rfl
@[simp] theorem raiseHwIoFail_doneQ (code : ErrCode) (row : Idx) (s : State) : (raiseHwIoFail code row s).doneQ = true := rfl
@[simp] theorem raiseHwIoFail_errCodeQ (code : ErrCode) (row : Idx) (s : State) : (raiseHwIoFail code row s).errCodeQ = code := rfl
@[simp] theorem raiseHwIoFail_errRowQ (code : ErrCode) (row : Idx) (s : State) : (raiseHwIoFail code row s).errRowQ = row := rfl
@[simp] theorem raiseHwIoFail_errColQ (code : ErrCode) (row : Idx) (s : State) : (raiseHwIoFail code row s).errColQ = s.errColQ := rfl
@[simp] theorem raiseHwIoFail_sw (code : ErrCode) (row : Idx) (s : State) : (raiseHwIoFail code row s).sw = s.sw := rfl
@[simp] theorem raiseHwIoFail_cfg (code : ErrCode) (row : Idx) (s : State) : (raiseHwIoFail code row s).cfg = s.cfg := rfl
@[simp] theorem raiseHwIoFail_padUnknown (code : ErrCode) (row : Idx) (s : State) : (raiseHwIoFail code row s).padUnknown = s.padUnknown := rfl
@[simp] theorem raiseHwIoFail_launched (code : ErrCode) (row : Idx) (s : State) : (raiseHwIoFail code row s).launched = s.launched := rfl
@[simp] theorem raiseHwIoFail_pins (code : ErrCode) (row : Idx) (s : State) : (raiseHwIoFail code row s).pins = s.pins := rfl
@[simp] theorem raiseHwIoFail_cycle (code : ErrCode) (row : Idx) (s : State) : (raiseHwIoFail code row s).cycle = s.cycle := rfl

/-! ### `readRule` -/

@[simp] theorem readRule_phase (i : Inputs) (s : State) : (readRule i s).phase = .row := rfl
@[simp] theorem readRule_r (i : Inputs) (s : State) : (readRule i s).r = 0#2 := rfl
@[simp] theorem readRule_c (i : Inputs) (s : State) : (readRule i s).c = 0#2 := rfl
@[simp] theorem readRule_acc (i : Inputs) (s : State) : (readRule i s).acc = 0x0000#16 := rfl
@[simp] theorem readRule_maskQ (i : Inputs) (s : State) : (readRule i s).maskQ = s.maskQ := rfl
@[simp] theorem readRule_rowQ (i : Inputs) (s : State) : (readRule i s).rowQ = s.rowQ := rfl
@[simp] theorem readRule_cnt (i : Inputs) (s : State) : (readRule i s).cnt = s.cnt := rfl
@[simp] theorem readRule_lenQ (i : Inputs) (s : State) : (readRule i s).lenQ = i.settle s.sw := rfl
@[simp] theorem readRule_pendFatal (i : Inputs) (s : State) : (readRule i s).pendFatal = false := rfl
@[simp] theorem readRule_validQ (i : Inputs) (s : State) : (readRule i s).validQ = false := rfl
@[simp] theorem readRule_doneQ (i : Inputs) (s : State) : (readRule i s).doneQ = false := rfl
@[simp] theorem readRule_errCodeQ (i : Inputs) (s : State) : (readRule i s).errCodeQ = 0b000#3 := rfl
@[simp] theorem readRule_errRowQ (i : Inputs) (s : State) : (readRule i s).errRowQ = 0#2 := rfl
@[simp] theorem readRule_errColQ (i : Inputs) (s : State) : (readRule i s).errColQ = 0#2 := rfl
@[simp] theorem readRule_sw (i : Inputs) (s : State) : (readRule i s).sw = s.sw := rfl
@[simp] theorem readRule_cfg (i : Inputs) (s : State) : (readRule i s).cfg = s.cfg := rfl
@[simp] theorem readRule_padUnknown (i : Inputs) (s : State) : (readRule i s).padUnknown = s.padUnknown := rfl
@[simp] theorem readRule_launched (i : Inputs) (s : State) : (readRule i s).launched = s.launched := rfl
@[simp] theorem readRule_pins (i : Inputs) (s : State) : (readRule i s).pins = s.pins := rfl
@[simp] theorem readRule_cycle (i : Inputs) (s : State) : (readRule i s).cycle = s.cycle := rfl

/-! ### `finishRule` -/

@[simp] theorem finishRule_phase (i : Inputs) (s : State) : (finishRule i s).phase = .idle := rfl
@[simp] theorem finishRule_r (i : Inputs) (s : State) : (finishRule i s).r = 0#2 := rfl
@[simp] theorem finishRule_c (i : Inputs) (s : State) : (finishRule i s).c = s.c := rfl
@[simp] theorem finishRule_acc (i : Inputs) (s : State) : (finishRule i s).acc = s.acc := rfl
@[simp] theorem finishRule_maskQ (i : Inputs) (s : State) : (finishRule i s).maskQ = s.acc := rfl
@[simp] theorem finishRule_rowQ (i : Inputs) (s : State) : (finishRule i s).rowQ = s.rowQ := rfl
@[simp] theorem finishRule_cnt (i : Inputs) (s : State) : (finishRule i s).cnt = s.cnt := rfl
@[simp] theorem finishRule_lenQ (i : Inputs) (s : State) : (finishRule i s).lenQ = s.lenQ := rfl
@[simp] theorem finishRule_pendFatal (i : Inputs) (s : State) : (finishRule i s).pendFatal = s.pendFatal := rfl
@[simp] theorem finishRule_validQ (i : Inputs) (s : State) : (finishRule i s).validQ = true := rfl
@[simp] theorem finishRule_doneQ (i : Inputs) (s : State) : (finishRule i s).doneQ = true := rfl
@[simp] theorem finishRule_errCodeQ (i : Inputs) (s : State) : (finishRule i s).errCodeQ = s.errCodeQ := rfl
@[simp] theorem finishRule_errRowQ (i : Inputs) (s : State) : (finishRule i s).errRowQ = s.errRowQ := rfl
@[simp] theorem finishRule_errColQ (i : Inputs) (s : State) : (finishRule i s).errColQ = s.errColQ := rfl
@[simp] theorem finishRule_sw (i : Inputs) (s : State) : (finishRule i s).sw = s.sw := rfl
@[simp] theorem finishRule_cfg (i : Inputs) (s : State) : (finishRule i s).cfg = s.cfg := rfl
@[simp] theorem finishRule_padUnknown (i : Inputs) (s : State) : (finishRule i s).padUnknown = s.padUnknown := rfl
@[simp] theorem finishRule_launched (i : Inputs) (s : State) : (finishRule i s).launched = s.launched := rfl
@[simp] theorem finishRule_pins (i : Inputs) (s : State) : (finishRule i s).pins = s.pins := rfl
@[simp] theorem finishRule_cycle (i : Inputs) (s : State) : (finishRule i s).cycle = s.cycle := rfl

/-! ### `State.afterReset` -/

@[simp] theorem State.afterReset_phase (sw : Nat) (cfg : Cfg) : (State.afterReset sw cfg).phase = .init := rfl
@[simp] theorem State.afterReset_r (sw : Nat) (cfg : Cfg) : (State.afterReset sw cfg).r = 0#2 := rfl
@[simp] theorem State.afterReset_c (sw : Nat) (cfg : Cfg) : (State.afterReset sw cfg).c = 0#2 := rfl
@[simp] theorem State.afterReset_acc (sw : Nat) (cfg : Cfg) : (State.afterReset sw cfg).acc = 0x0000#16 := rfl
@[simp] theorem State.afterReset_maskQ (sw : Nat) (cfg : Cfg) : (State.afterReset sw cfg).maskQ = 0x0000#16 := rfl
@[simp] theorem State.afterReset_rowQ (sw : Nat) (cfg : Cfg) : (State.afterReset sw cfg).rowQ = 0b0000#4 := rfl
@[simp] theorem State.afterReset_cnt (sw : Nat) (cfg : Cfg) : (State.afterReset sw cfg).cnt = 0 := rfl
@[simp] theorem State.afterReset_lenQ (sw : Nat) (cfg : Cfg) : (State.afterReset sw cfg).lenQ = 0 := rfl
@[simp] theorem State.afterReset_pendFatal (sw : Nat) (cfg : Cfg) : (State.afterReset sw cfg).pendFatal = false := rfl
@[simp] theorem State.afterReset_validQ (sw : Nat) (cfg : Cfg) : (State.afterReset sw cfg).validQ = false := rfl
@[simp] theorem State.afterReset_doneQ (sw : Nat) (cfg : Cfg) : (State.afterReset sw cfg).doneQ = false := rfl
@[simp] theorem State.afterReset_errCodeQ (sw : Nat) (cfg : Cfg) : (State.afterReset sw cfg).errCodeQ = 0b000#3 := rfl
@[simp] theorem State.afterReset_errRowQ (sw : Nat) (cfg : Cfg) : (State.afterReset sw cfg).errRowQ = 0#2 := rfl
@[simp] theorem State.afterReset_errColQ (sw : Nat) (cfg : Cfg) : (State.afterReset sw cfg).errColQ = 0#2 := rfl
@[simp] theorem State.afterReset_sw (sw : Nat) (cfg : Cfg) : (State.afterReset sw cfg).sw = sw := rfl
@[simp] theorem State.afterReset_cfg (sw : Nat) (cfg : Cfg) : (State.afterReset sw cfg).cfg = cfg := rfl
@[simp] theorem State.afterReset_padUnknown (sw : Nat) (cfg : Cfg) : (State.afterReset sw cfg).padUnknown = 0b0000#4 := rfl
@[simp] theorem State.afterReset_launched (sw : Nat) (cfg : Cfg) : (State.afterReset sw cfg).launched = true := rfl
@[simp] theorem State.afterReset_pins (sw : Nat) (cfg : Cfg) : (State.afterReset sw cfg).pins = [] := rfl
@[simp] theorem State.afterReset_cycle (sw : Nat) (cfg : Cfg) : (State.afterReset sw cfg).cycle = 0 := rfl

/-! ### `resetRule` -/

@[simp] theorem resetRule_phase (i : Inputs) (s : State) : (resetRule i s).phase = .init := rfl
@[simp] theorem resetRule_r (i : Inputs) (s : State) : (resetRule i s).r = 0#2 := rfl
@[simp] theorem resetRule_c (i : Inputs) (s : State) : (resetRule i s).c = 0#2 := rfl
@[simp] theorem resetRule_acc (i : Inputs) (s : State) : (resetRule i s).acc = 0x0000#16 := rfl
@[simp] theorem resetRule_maskQ (i : Inputs) (s : State) : (resetRule i s).maskQ = 0x0000#16 := rfl
@[simp] theorem resetRule_rowQ (i : Inputs) (s : State) : (resetRule i s).rowQ = 0b0000#4 := rfl
@[simp] theorem resetRule_cnt (i : Inputs) (s : State) : (resetRule i s).cnt = 0 := rfl
@[simp] theorem resetRule_lenQ (i : Inputs) (s : State) : (resetRule i s).lenQ = 0 := rfl
@[simp] theorem resetRule_pendFatal (i : Inputs) (s : State) : (resetRule i s).pendFatal = false := rfl
@[simp] theorem resetRule_validQ (i : Inputs) (s : State) : (resetRule i s).validQ = false := rfl
@[simp] theorem resetRule_doneQ (i : Inputs) (s : State) : (resetRule i s).doneQ = false := rfl
@[simp] theorem resetRule_errCodeQ (i : Inputs) (s : State) : (resetRule i s).errCodeQ = 0b000#3 := rfl
@[simp] theorem resetRule_errRowQ (i : Inputs) (s : State) : (resetRule i s).errRowQ = 0#2 := rfl
@[simp] theorem resetRule_errColQ (i : Inputs) (s : State) : (resetRule i s).errColQ = 0#2 := rfl
@[simp] theorem resetRule_sw (i : Inputs) (s : State) : (resetRule i s).sw = s.sw := rfl
@[simp] theorem resetRule_cfg (i : Inputs) (s : State) : (resetRule i s).cfg = i.cfg := rfl
@[simp] theorem resetRule_padUnknown (i : Inputs) (s : State) : (resetRule i s).padUnknown = s.padUnknown := rfl
@[simp] theorem resetRule_launched (i : Inputs) (s : State) : (resetRule i s).launched = true := rfl
@[simp] theorem resetRule_pins (i : Inputs) (s : State) : (resetRule i s).pins = s.pins.tail := rfl
@[simp] theorem resetRule_cycle (i : Inputs) (s : State) : (resetRule i s).cycle = s.cycle + 1 := rfl

/-! ### `initAdvance`, by its test -/

@[simp] theorem initAdvance_phase (s : State) :
    (initAdvance s).phase = if s.r = 3#2 then .idle else s.phase := by
  unfold initAdvance
  split <;> simp [*]
@[simp] theorem initAdvance_r (s : State) :
    (initAdvance s).r = if s.r = 3#2 then 0#2 else s.r + 1#2 := by
  unfold initAdvance
  split <;> simp [*]
@[simp] theorem initAdvance_c (s : State) : (initAdvance s).c = s.c := by
  unfold initAdvance
  split <;> rfl
@[simp] theorem initAdvance_acc (s : State) : (initAdvance s).acc = s.acc := by
  unfold initAdvance
  split <;> rfl
@[simp] theorem initAdvance_maskQ (s : State) : (initAdvance s).maskQ = s.maskQ := by
  unfold initAdvance
  split <;> rfl
@[simp] theorem initAdvance_rowQ (s : State) : (initAdvance s).rowQ = s.rowQ := by
  unfold initAdvance
  split <;> rfl
@[simp] theorem initAdvance_cnt (s : State) : (initAdvance s).cnt = s.cnt := by
  unfold initAdvance
  split <;> rfl
@[simp] theorem initAdvance_lenQ (s : State) : (initAdvance s).lenQ = s.lenQ := by
  unfold initAdvance
  split <;> rfl
@[simp] theorem initAdvance_pendFatal (s : State) : (initAdvance s).pendFatal = s.pendFatal := by
  unfold initAdvance
  split <;> rfl
@[simp] theorem initAdvance_validQ (s : State) : (initAdvance s).validQ = s.validQ := by
  unfold initAdvance
  split <;> rfl
@[simp] theorem initAdvance_doneQ (s : State) : (initAdvance s).doneQ = s.doneQ := by
  unfold initAdvance
  split <;> rfl
@[simp] theorem initAdvance_errCodeQ (s : State) : (initAdvance s).errCodeQ = s.errCodeQ := by
  unfold initAdvance
  split <;> rfl
@[simp] theorem initAdvance_errRowQ (s : State) : (initAdvance s).errRowQ = s.errRowQ := by
  unfold initAdvance
  split <;> rfl
@[simp] theorem initAdvance_errColQ (s : State) : (initAdvance s).errColQ = s.errColQ := by
  unfold initAdvance
  split <;> rfl
@[simp] theorem initAdvance_sw (s : State) : (initAdvance s).sw = s.sw := by
  unfold initAdvance
  split <;> rfl
@[simp] theorem initAdvance_cfg (s : State) : (initAdvance s).cfg = s.cfg := by
  unfold initAdvance
  split <;> rfl
@[simp] theorem initAdvance_padUnknown (s : State) : (initAdvance s).padUnknown = s.padUnknown := by
  unfold initAdvance
  split <;> rfl
@[simp] theorem initAdvance_launched (s : State) : (initAdvance s).launched = s.launched := by
  unfold initAdvance
  split <;> rfl
@[simp] theorem initAdvance_pins (s : State) : (initAdvance s).pins = s.pins := by
  unfold initAdvance
  split <;> rfl
@[simp] theorem initAdvance_cycle (s : State) : (initAdvance s).cycle = s.cycle := by
  unfold initAdvance
  split <;> rfl

/-! ### `sampleAdvance`, by its test -/

@[simp] theorem sampleAdvance_phase (s : State) :
    (sampleAdvance s).phase = if s.c = 3#2 then .deassert else s.phase := by
  unfold sampleAdvance
  split <;> simp [*]
@[simp] theorem sampleAdvance_r (s : State) : (sampleAdvance s).r = s.r := by
  unfold sampleAdvance
  split <;> rfl
@[simp] theorem sampleAdvance_c (s : State) :
    (sampleAdvance s).c = if s.c = 3#2 then 0#2 else s.c + 1#2 := by
  unfold sampleAdvance
  split <;> simp [*]
@[simp] theorem sampleAdvance_acc (s : State) : (sampleAdvance s).acc = s.acc := by
  unfold sampleAdvance
  split <;> rfl
@[simp] theorem sampleAdvance_maskQ (s : State) : (sampleAdvance s).maskQ = s.maskQ := by
  unfold sampleAdvance
  split <;> rfl
@[simp] theorem sampleAdvance_rowQ (s : State) : (sampleAdvance s).rowQ = s.rowQ := by
  unfold sampleAdvance
  split <;> rfl
@[simp] theorem sampleAdvance_cnt (s : State) : (sampleAdvance s).cnt = s.cnt := by
  unfold sampleAdvance
  split <;> rfl
@[simp] theorem sampleAdvance_lenQ (s : State) : (sampleAdvance s).lenQ = s.lenQ := by
  unfold sampleAdvance
  split <;> rfl
@[simp] theorem sampleAdvance_pendFatal (s : State) : (sampleAdvance s).pendFatal = s.pendFatal := by
  unfold sampleAdvance
  split <;> rfl
@[simp] theorem sampleAdvance_validQ (s : State) : (sampleAdvance s).validQ = s.validQ := by
  unfold sampleAdvance
  split <;> rfl
@[simp] theorem sampleAdvance_doneQ (s : State) : (sampleAdvance s).doneQ = s.doneQ := by
  unfold sampleAdvance
  split <;> rfl
@[simp] theorem sampleAdvance_errCodeQ (s : State) : (sampleAdvance s).errCodeQ = s.errCodeQ := by
  unfold sampleAdvance
  split <;> rfl
@[simp] theorem sampleAdvance_errRowQ (s : State) : (sampleAdvance s).errRowQ = s.errRowQ := by
  unfold sampleAdvance
  split <;> rfl
@[simp] theorem sampleAdvance_errColQ (s : State) : (sampleAdvance s).errColQ = s.errColQ := by
  unfold sampleAdvance
  split <;> rfl
@[simp] theorem sampleAdvance_sw (s : State) : (sampleAdvance s).sw = s.sw := by
  unfold sampleAdvance
  split <;> rfl
@[simp] theorem sampleAdvance_cfg (s : State) : (sampleAdvance s).cfg = s.cfg := by
  unfold sampleAdvance
  split <;> rfl
@[simp] theorem sampleAdvance_padUnknown (s : State) : (sampleAdvance s).padUnknown = s.padUnknown := by
  unfold sampleAdvance
  split <;> rfl
@[simp] theorem sampleAdvance_launched (s : State) : (sampleAdvance s).launched = s.launched := by
  unfold sampleAdvance
  split <;> rfl
@[simp] theorem sampleAdvance_pins (s : State) : (sampleAdvance s).pins = s.pins := by
  unfold sampleAdvance
  split <;> rfl
@[simp] theorem sampleAdvance_cycle (s : State) : (sampleAdvance s).cycle = s.cycle := by
  unfold sampleAdvance
  split <;> rfl

/-! ### `driveRow`, by its test -/

@[simp] theorem driveRow_phase (level : Bool) (i : Inputs) (s : State) : (driveRow level i s).phase = s.phase := by
  unfold driveRow
  split <;> rfl
@[simp] theorem driveRow_r (level : Bool) (i : Inputs) (s : State) : (driveRow level i s).r = s.r := by
  unfold driveRow
  split <;> rfl
@[simp] theorem driveRow_c (level : Bool) (i : Inputs) (s : State) : (driveRow level i s).c = s.c := by
  unfold driveRow
  split <;> rfl
@[simp] theorem driveRow_acc (level : Bool) (i : Inputs) (s : State) : (driveRow level i s).acc = s.acc := by
  unfold driveRow
  split <;> rfl
@[simp] theorem driveRow_maskQ (level : Bool) (i : Inputs) (s : State) : (driveRow level i s).maskQ = s.maskQ := by
  unfold driveRow
  split <;> rfl
@[simp] theorem driveRow_rowQ (level : Bool) (i : Inputs) (s : State) :
    (driveRow level i s).rowQ = if i.drvErr then s.rowQ else setLine s.rowQ s.r level := by
  unfold driveRow
  split <;> simp [*]
@[simp] theorem driveRow_cnt (level : Bool) (i : Inputs) (s : State) : (driveRow level i s).cnt = s.cnt := by
  unfold driveRow
  split <;> rfl
@[simp] theorem driveRow_lenQ (level : Bool) (i : Inputs) (s : State) : (driveRow level i s).lenQ = s.lenQ := by
  unfold driveRow
  split <;> rfl
@[simp] theorem driveRow_pendFatal (level : Bool) (i : Inputs) (s : State) : (driveRow level i s).pendFatal = s.pendFatal := by
  unfold driveRow
  split <;> rfl
@[simp] theorem driveRow_validQ (level : Bool) (i : Inputs) (s : State) : (driveRow level i s).validQ = s.validQ := by
  unfold driveRow
  split <;> rfl
@[simp] theorem driveRow_doneQ (level : Bool) (i : Inputs) (s : State) : (driveRow level i s).doneQ = s.doneQ := by
  unfold driveRow
  split <;> rfl
@[simp] theorem driveRow_errCodeQ (level : Bool) (i : Inputs) (s : State) : (driveRow level i s).errCodeQ = s.errCodeQ := by
  unfold driveRow
  split <;> rfl
@[simp] theorem driveRow_errRowQ (level : Bool) (i : Inputs) (s : State) : (driveRow level i s).errRowQ = s.errRowQ := by
  unfold driveRow
  split <;> rfl
@[simp] theorem driveRow_errColQ (level : Bool) (i : Inputs) (s : State) : (driveRow level i s).errColQ = s.errColQ := by
  unfold driveRow
  split <;> rfl
@[simp] theorem driveRow_sw (level : Bool) (i : Inputs) (s : State) : (driveRow level i s).sw = s.sw := by
  unfold driveRow
  split <;> rfl
@[simp] theorem driveRow_cfg (level : Bool) (i : Inputs) (s : State) : (driveRow level i s).cfg = s.cfg := by
  unfold driveRow
  split <;> rfl
@[simp] theorem driveRow_padUnknown (level : Bool) (i : Inputs) (s : State) :
    (driveRow level i s).padUnknown = setLine s.padUnknown s.r i.drvErr := by
  unfold driveRow
  split <;> simp [*]
@[simp] theorem driveRow_launched (level : Bool) (i : Inputs) (s : State) : (driveRow level i s).launched = s.launched := by
  unfold driveRow
  split <;> rfl
@[simp] theorem driveRow_pins (level : Bool) (i : Inputs) (s : State) : (driveRow level i s).pins = s.pins := by
  unfold driveRow
  split <;> rfl
@[simp] theorem driveRow_cycle (level : Bool) (i : Inputs) (s : State) : (driveRow level i s).cycle = s.cycle := by
  unfold driveRow
  split <;> rfl

end Sys2Proof.Machine
end

