-- ==== Sys2Proof/Laws/Ops.lean ====
section
/-! SUPPORT. One law per shared operation: lines, inputs, the row drive, the edge, and the step. -/

namespace Sys2Proof.Machine

/-! ### Lines and LAYOUT cells -/

theorem lineBit_setLine (v : Lines) (k j : Idx) (b : Bool) :
    lineBit (setLine v k b) j = if j = k then b else lineBit v j := by
  revert v k j b; decide

@[simp] theorem lineBit_zero (k : Idx) : lineBit 0b0000#4 k = false := by revert k; decide

@[simp] theorem setLine_zero_false (k : Idx) : setLine 0b0000#4 k false = 0b0000#4 := by revert k; decide

theorem setLine_zero_true (k : Idx) : setLine 0b0000#4 k true = 1#4 <<< k.toNat := by revert k; decide

theorem setLine_oneLine_false (k : Idx) : setLine (1#4 <<< k.toNat) k false = 0b0000#4 := by revert k; decide

theorem lineBit_oneLine (k j : Idx) : lineBit (1#4 <<< k.toNat) j = decide (j = k) := by revert k j; decide

theorem layoutRead_toNat (layout : Layout) (r c : Idx) :
    (layoutRead layout r c).toNat = layout.toNat / 2 ^ (4 * (4 * r.toNat + c.toNat)) % 2 ^ 4 := by
  simp [layoutRead, BitVec.extractLsb'_toNat, Nat.shiftRight_eq_div_pow]

/-- LAYOUT cell `k = 4*r + c` is the `k`-th cell of the table (20_memory.md R41, R43). -/
theorem layoutCells_getElem? (layout : Layout) (r c : Idx) :
    (layoutCells layout)[4 * r.toNat + c.toNat]? = some (layoutRead layout r c) := by
  have hr := r.isLt
  have hc := c.isLt
  simp [layoutCells, layoutRead, List.getElem?_range (show 4 * r.toNat + c.toNat < 16 by omega)]

/-! ### Inputs -/

@[simp] theorem now_of_cons (s : State) (i : Inputs) (rest : List Inputs) : ({ s with pins := i :: rest }).now = i := rfl

@[simp] theorem now_atWord (s : State) (p : Phase) (r c : Idx) : (s.atWord p r c).now = s.now := rfl

@[simp] theorem now_present (s : State) (rst : Bool) (cmd : BitVec 2) (len : Nat) :
    (s.present rst cmd len).now = { s.now with rst := rst, cmd := cmd, settleLen := len } := rfl

@[simp] theorem beginEdge_present (s : State) (rst : Bool) (cmd : BitVec 2) (len : Nat) :
    (s.present rst cmd len).beginEdge = s.beginEdge := rfl

@[simp] theorem atWord_self (s : State) : s.atWord s.phase s.r s.c = s := rfl

/-- The inputs of the next edge are those listed first. -/
theorem inputAt_zero {s : State} (h : 1 ≤ s.pins.length) : s.inputAt 0 = s.now := by
  cases hp : s.pins with
  | nil => simp [hp] at h
  | cons i rest => simp [State.inputAt, State.now, hp]

/-! ### The row drive (10_state.md R26, R27) -/

theorem driveRow_of_fail (level : Bool) {i : Inputs} (s : State) (h : i.drvErr = true) :
    driveRow level i s = { s with padUnknown := setLine s.padUnknown s.r true } := by
  simp [driveRow, h]

theorem driveRow_of_ok (level : Bool) {i : Inputs} (s : State) (h : i.drvErr = false) :
    driveRow level i s =
      { s with rowQ := setLine s.rowQ s.r level, padUnknown := setLine s.padUnknown s.r false } := by
  simp [driveRow, h]

/-- A drive writes `row_q` only where it succeeds, and only bit `r`. -/
theorem lineBit_driveRow_rowQ (level : Bool) (i : Inputs) (s : State) (k : Idx) :
    lineBit (driveRow level i s).rowQ k = if k = s.r ∧ i.drvErr = false then level else lineBit s.rowQ k := by
  unfold driveRow
  split
  · simp [*]
  · simp_all [lineBit_setLine]

/-- A drive makes the pad level of its row unknown exactly when it fails. -/
theorem lineBit_driveRow_padUnknown (level : Bool) (i : Inputs) (s : State) (k : Idx) :
    lineBit (driveRow level i s).padUnknown k = if k = s.r then i.drvErr else lineBit s.padUnknown k := by
  unfold driveRow
  split <;> simp_all [lineBit_setLine]

/-! ### The edge -/

/-- What an edge that answers a next state can do, and under which conditions it answers one. -/
theorem edge_eq_next {rule : Inputs → State → State} {s t : State} :
    edge rule s = .next t ↔
      s.HostDuties ∧ s.WordReachable ∧ s.CodeAssigned ∧ rule s.now s.beginEdge = t := by
  unfold edge
  repeat' split
  all_goals simp_all [assignedErrCode, State.HostDuties, State.WordReachable, State.CodeAssigned]

/-- An edge under the host's duties, at a reachable state word and with an assigned error code, completes. -/
theorem edge_of_duties (rule : Inputs → State → State) {s : State} (hd : s.HostDuties) (hw : s.WordReachable)
    (hc : s.CodeAssigned) : edge rule s = .next (rule s.now s.beginEdge) :=
  edge_eq_next.mpr ⟨hd, hw, hc, rfl⟩

/-- A micro-operation at a reachable state word completes. -/
theorem edge_at_word (rule : Inputs → State → State) {s : State} {p : Phase} {r c : Idx} (hd : s.HostDuties)
    (hw : reachableWord p r c = true) (hc : s.CodeAssigned) :
    edge rule (s.atWord p r c) = .next (rule s.now (s.atWord p r c).beginEdge) :=
  edge_of_duties rule (s := s.atWord p r c) hd hw hc

/-- A reachable state word is a well-formed micro-operation, and the other way round. -/
theorem microOp_wf (sw : Nat) (p : Phase) (r c : Idx) : (microOp p r c).wf sw = reachableWord p r c := by
  cases p <;> rfl

/-- Edges of two states agree where the guard reads the same values and the rules answer the same. -/
theorem edge_agree {rule rule' : Inputs → State → State} {s t : State} (hl : s.launched = t.launched)
    (hi : s.now.cfg = t.now.cfg) (hcfg : s.cfg = t.cfg) (hp : s.phase = t.phase) (hr : s.r = t.r) (hc : s.c = t.c)
    (he : s.errCodeQ = t.errCodeQ) (h : rule s.now s.beginEdge = rule' t.now t.beginEdge) :
    edge rule s = edge rule' t := by
  simp only [edge, hl, hi, hcfg, hp, hr, hc, he, h]

/-- Two rules that agree on the edge's inputs and state make one edge. -/
theorem edge_congr {rule rule' : Inputs → State → State} {s : State}
    (h : rule s.now s.beginEdge = rule' s.now s.beginEdge) : edge rule s = edge rule' s :=
  edge_agree rfl rfl rfl rfl rfl rfl rfl h

/-- The micro-operation of the current state word is one edge under its phase rule (41_scan_fsm.md R78). -/
theorem exec_microOp_self (s : State) : exec (microOp s.phase s.r s.c) s = edge phaseRule s := by
  have hs : ∀ p, s.phase = p → s.atWord p s.r s.c = s := by rintro p rfl; rfl
  cases hp : s.phase <;>
    simp only [microOp, exec, execInit, execIdle, execRow, execSettle, execSample, execDeassert, execFinish,
      execInitFailed, hs _ hp] <;>
    exact edge_congr (by simp [phaseRule, hp])

/-- The step in one line: reset, or one edge under the phase rule (R78). -/
theorem step_eq (s : State) : step s = if s.now.rst then .next (resetRule s.now s) else edge phaseRule s := by
  unfold step State.fetch
  split
  · rfl
  · exact exec_microOp_self s

/-- Everything a step can do. -/
theorem step_cases {s t : State} (h : step s = .next t) :
    (s.now.rst = true ∧ t = resetRule s.now s) ∨
    (s.now.rst = false ∧ s.HostDuties ∧ s.WordReachable ∧ s.CodeAssigned ∧ t = phaseRule s.now s.beginEdge) := by
  rw [step_eq] at h
  split at h
  · next hr => exact .inl ⟨hr, by cases h; rfl⟩
  · next hr =>
    obtain ⟨hd, hw, hc, rfl⟩ := edge_eq_next.mp h
    exact .inr ⟨by simpa using hr, hd, hw, hc, rfl⟩

/-- In IDLE a command's own rule decides the edge (40_commands.md R73). -/
theorem commandRule_in_idle (rule : Inputs → State → State) (i : Inputs) {s : State} (h : s.phase = .idle) :
    commandRule rule i s = rule i s := if_pos h

/-- Elsewhere the phase rule does (R77). -/
theorem commandRule_elsewhere (rule : Inputs → State → State) (i : Inputs) {s : State} (h : s.phase ≠ .idle) :
    commandRule rule i s = phaseRule i s := if_neg h

/-- A host command presented in IDLE, under the host's duties, is one edge under its own rule (40_commands.md R73). -/
theorem edge_command_in_idle (rule : Inputs → State → State) {s : State} (cmd : BitVec 2) (len : Nat)
    (hs : s.At .idle 0#2) (hcfg : s.now.cfg = s.cfg) :
    edge (commandRule rule) (s.present false cmd len) =
      .next (rule { s.now with rst := false, cmd := cmd, settleLen := len } s.beginEdge) := by
  obtain ⟨hp, hr, hc, he, hl, hw⟩ := hs
  have hword : (s.present false cmd len).WordReachable := by simp [State.WordReachable, hp, hr, hc, reachableWord]
  rw [edge_of_duties _ (s := s.present false cmd len) ⟨hl, hcfg, hw⟩ hword he]
  simp [commandRule, hp]

/-! ### Runs -/

@[simp] theorem run_zero (s : State) : run 0 s = .next s := rfl

theorem run_succ (k : Nat) (s : State) :
    run (k + 1) s = match step s with
      | .next t => run k t
      | .fault f => .fault f
      | .refused q => .refused q := by
  cases h : step s <;> simp only [run, Host.Core.run, show Sys2Proof.core.step s = _ from h] <;> rfl

theorem run_succ_of_next {k : Nat} {s t : State} (h : step s = .next t) : run (k + 1) s = run k t := by
  rw [run_succ, h]

/-- An invariant of the step holds along every run. -/
theorem run_keeps {P : State → Prop} (hstep : ∀ s t, P s → step s = .next t → P t) :
    ∀ (k : Nat) {s t : State}, P s → run k s = .next t → P t
  | 0, _, _, hs, h => by cases h; exact hs
  | k + 1, s, t, hs, h => by
    rw [run_succ] at h
    cases hk : step s with
    | next u => rw [hk] at h; exact run_keeps hstep k (hstep _ _ hs hk) h
    | fault f => rw [hk] at h; cases h
    | refused q => rw [hk] at h; cases h

end Sys2Proof.Machine
end

