-- ==== Sys2Proof/Laws/PerInstr.lean ====
section
/-! SUPPORT. A family of facts about every instruction as syntax: its word fits its format, and the opcode bits of the
word are the ones the opcode table fixes (30_encoding.md R58 to R62). -/

namespace Sys2Proof.Laws.EncodedWord

/-- How many operand bits stand below the opcode bits of a word. -/
def operandBits (sw : Nat) : Format → Nat
  | .hostcmd => sw
  | .state => 4

/-- The opcode bits of each row of spec/opcode_table.json, with the bits RESET ignores written 0. -/
def opcode : Instr → Nat
  | .reset => 0b100
  | .nop => 0b000
  | .read _ => 0b001
  | .rsv2 => 0b010
  | .rsv3 => 0b011
  | .init _ _ => 0b000
  | .idle _ _ => 0b001
  | .row _ _ => 0b010
  | .settle _ _ => 0b011
  | .sample _ _ => 0b100
  | .deassert _ _ => 0b101
  | .finish _ _ => 0b110
  | .initFailed _ _ => 0b111

/-- The word fits its format and carries the row's opcode bits, at every SW. -/
def Statement (i : Instr) : Prop :=
  ∀ sw : Nat, encode sw i < 2 ^ wordBits sw i.format ∧ encode sw i / 2 ^ operandBits sw i.format = opcode i

/-- A state word holds its phase above the four operand bits. -/
theorem stateBits_div (p : Phase) (r c : Idx) : stateBits p r c / 2 ^ 4 = p.code.toNat := by
  have hr := r.isLt
  have hc := c.isLt
  unfold stateBits
  omega

theorem reset : Statement .reset := fun _ => ⟨hostBits_lt .., hostBits_div ..⟩
theorem nop : Statement .nop := fun _ => ⟨hostBits_lt .., hostBits_div ..⟩
theorem read (len : Nat) : Statement (.read len) := fun _ => ⟨hostBits_lt .., hostBits_div ..⟩
theorem rsv2 : Statement .rsv2 := fun _ => ⟨hostBits_lt .., hostBits_div ..⟩
theorem rsv3 : Statement .rsv3 := fun _ => ⟨hostBits_lt .., hostBits_div ..⟩
theorem init (r c : Idx) : Statement (.init r c) := fun _ => ⟨stateBits_lt .., stateBits_div ..⟩
theorem idle (r c : Idx) : Statement (.idle r c) := fun _ => ⟨stateBits_lt .., stateBits_div ..⟩
theorem row (r c : Idx) : Statement (.row r c) := fun _ => ⟨stateBits_lt .., stateBits_div ..⟩
theorem settle (r c : Idx) : Statement (.settle r c) := fun _ => ⟨stateBits_lt .., stateBits_div ..⟩
theorem sample (r c : Idx) : Statement (.sample r c) := fun _ => ⟨stateBits_lt .., stateBits_div ..⟩
theorem deassert (r c : Idx) : Statement (.deassert r c) := fun _ => ⟨stateBits_lt .., stateBits_div ..⟩
theorem finish (r c : Idx) : Statement (.finish r c) := fun _ => ⟨stateBits_lt .., stateBits_div ..⟩
theorem initFailed (r c : Idx) : Statement (.initFailed r c) := fun _ => ⟨stateBits_lt .., stateBits_div ..⟩

end Sys2Proof.Laws.EncodedWord
end

