-- ==== Sys2Proof/Laws/Rules.lean ====
section
/-! SUPPORT. Everything each phase rule can do, said once (41_scan_fsm.md R79 to R86). -/

namespace Sys2Proof.Machine

/-- What `driveRow` leaves alone: every field but `row_q` and the pad levels. -/
theorem driveRow_frame (level : Bool) (i : Inputs) (s : State) :
    driveRow level i s =
      { s with rowQ := (driveRow level i s).rowQ, padUnknown := (driveRow level i s).padUnknown } := by
  unfold driveRow
  split <;> rfl

theorem initAdvance_cases (s : State) :
    (s.r = 3#2 ∧ initAdvance s = { s with r := 0#2, phase := .idle }) ∨
    (s.r ≠ 3#2 ∧ initAdvance s = { s with r := s.r + 1#2 }) := by
  unfold initAdvance
  split <;> simp [*]

/-- INIT skips an absent row, fails, or drives the row low and goes on (R79). -/
theorem initRule_cases (i : Inputs) (s : State) :
    (hasRow s.cfg s.r = false ∧ initRule i s = initAdvance s) ∨
    (hasRow s.cfg s.r = true ∧ i.drvErr = true ∧
      initRule i s =
        { s with
          padUnknown := setLine s.padUnknown s.r true, errCodeQ := codeInitLowFail, errRowQ := s.r, r := 0#2,
          phase := .initFailed }) ∨
    (hasRow s.cfg s.r = true ∧ i.drvErr = false ∧
      initRule i s = initAdvance
        { s with rowQ := setLine s.rowQ s.r false, padUnknown := setLine s.padUnknown s.r false }) := by
  unfold initRule
  cases hp : hasRow s.cfg s.r <;> cases hd : i.drvErr <;> simp [driveRow, hd]

/-- IDLE performs READ or writes nothing (R80). -/
theorem idleRule_cases (i : Inputs) (s : State) :
    (i.cmd = 0b01#2 ∧ idleRule i s = readRule i s) ∨ (i.cmd ≠ 0b01#2 ∧ idleRule i s = s) := by
  unfold idleRule
  by_cases h : i.cmd = 0b01#2
  · simp [h]
  · simp [h, nopRule, rsv2Rule, rsv3Rule]

/-- ROW skips an absent row, aborts, or asserts the row (R81). -/
theorem rowRule_cases (i : Inputs) (s : State) :
    (hasRow s.cfg s.r = false ∧ s.r = 3#2 ∧ rowRule i s = { s with phase := .finish }) ∨
    (hasRow s.cfg s.r = false ∧ s.r ≠ 3#2 ∧ rowRule i s = { s with r := s.r + 1#2 }) ∨
    (hasRow s.cfg s.r = true ∧ i.drvErr = true ∧
      rowRule i s = raiseHwIoFail codeRowHighFail s.r { s with padUnknown := setLine s.padUnknown s.r true }) ∨
    (hasRow s.cfg s.r = true ∧ i.drvErr = false ∧
      rowRule i s =
        { s with
          rowQ := setLine s.rowQ s.r true, padUnknown := setLine s.padUnknown s.r false, cnt := s.lenQ,
          phase := .settle }) := by
  unfold rowRule
  by_cases hr : s.r = 3#2 <;> cases hp : hasRow s.cfg s.r <;> cases hd : i.drvErr <;> simp [driveRow, hd, hr]

/-- SETTLE goes on to SAMPLE or counts down (R82). -/
theorem settleRule_cases (i : Inputs) (s : State) :
    (s.cnt = 0 ∧ settleRule i s = { s with phase := .sample }) ∨
    (s.cnt ≠ 0 ∧ settleRule i s = { s with cnt := s.cnt - 1 }) := by
  unfold settleRule
  split <;> simp [*]

theorem sampleAdvance_cases (s : State) :
    (s.c = 3#2 ∧ sampleAdvance s = { s with c := 0#2, phase := .deassert }) ∨
    (s.c ≠ 3#2 ∧ sampleAdvance s = { s with c := s.c + 1#2 }) := by
  unfold sampleAdvance
  split <;> simp [*]

/-- SAMPLE records a fatal column, accumulates a pressed one, or passes (R83). -/
theorem sampleRule_cases (i : Inputs) (s : State) :
    (fatalColumn s.cfg i s.c = true ∧
      sampleRule i s = { s with pendFatal := true, errColQ := s.c, c := 0#2, phase := .deassert }) ∨
    (fatalColumn s.cfg i s.c = false ∧ pressedColumn s.cfg i s.c = true ∧
      sampleRule i s = sampleAdvance { s with acc := s.acc ||| keyMask s.cfg.layout s.r s.c }) ∨
    (fatalColumn s.cfg i s.c = false ∧ pressedColumn s.cfg i s.c = false ∧ sampleRule i s = sampleAdvance s) := by
  unfold sampleRule
  cases hf : fatalColumn s.cfg i s.c <;> cases hp : pressedColumn s.cfg i s.c <;> simp

/-- DEASSERT aborts with ROW_LOW_FAIL, aborts with COL_FATAL after the row is low, or advances (R84). -/
theorem deassertRule_cases (i : Inputs) (s : State) :
    (i.drvErr = true ∧
      deassertRule i s =
        raiseHwIoFail codeRowLowFail s.r { s with padUnknown := setLine s.padUnknown s.r true }) ∨
    (i.drvErr = false ∧ s.pendFatal = true ∧
      deassertRule i s =
        raiseHwIoFail codeColFatal s.r
          { s with rowQ := setLine s.rowQ s.r false, padUnknown := setLine s.padUnknown s.r false }) ∨
    (i.drvErr = false ∧ s.pendFatal = false ∧ s.r = 3#2 ∧
      deassertRule i s =
        { s with
          rowQ := setLine s.rowQ s.r false, padUnknown := setLine s.padUnknown s.r false, phase := .finish }) ∨
    (i.drvErr = false ∧ s.pendFatal = false ∧ s.r ≠ 3#2 ∧
      deassertRule i s =
        { s with
          rowQ := setLine s.rowQ s.r false, padUnknown := setLine s.padUnknown s.r false, r := s.r + 1#2,
          phase := .row }) := by
  unfold deassertRule
  by_cases hf : s.pendFatal = true <;> by_cases hr : s.r = 3#2 <;> cases hd : i.drvErr <;>
    simp [driveRow, hd, hf, hr]

/-- INIT_FAILED writes nothing (R86). -/
@[simp] theorem initFailedRule_eq (i : Inputs) (s : State) : initFailedRule i s = s := rfl

/-- Outside IDLE a phase rule reads no host field (40_commands.md R77). -/
theorem phaseRule_ignores_host (i : Inputs) (rst : Bool) (cmd : BitVec 2) (len : Nat) {s : State} (h : s.phase ≠ .idle) :
    phaseRule { i with rst := rst, cmd := cmd, settleLen := len } s = phaseRule i s := by
  unfold phaseRule
  cases hp : s.phase with
  | idle => exact absurd hp h
  | init => rfl
  | row => rfl
  | settle => rfl
  | sample => rfl
  | deassert => rfl
  | finish => rfl
  | initFailed => rfl

/-- No phase rule writes SW, the held parameters, the launch, or the bookkeeping of the edge. -/
theorem phaseRule_keeps (i : Inputs) (s : State) :
    (phaseRule i s).sw = s.sw ∧ (phaseRule i s).cfg = s.cfg ∧ (phaseRule i s).launched = s.launched ∧
    (phaseRule i s).pins = s.pins ∧ (phaseRule i s).cycle = s.cycle := by
  unfold phaseRule
  cases s.phase with
  | init =>
    obtain ⟨-, h⟩ | ⟨-, -, h⟩ | ⟨-, -, h⟩ := initRule_cases i s <;> simp only [h]
    · obtain ⟨-, h'⟩ | ⟨-, h'⟩ := initAdvance_cases s <;> simp [h']
    · simp
    · unfold initAdvance
      split <;> simp
  | idle => obtain ⟨-, h⟩ | ⟨-, h⟩ := idleRule_cases i s <;> simp [h]
  | row => obtain ⟨-, -, h⟩ | ⟨-, -, h⟩ | ⟨-, -, h⟩ | ⟨-, -, h⟩ := rowRule_cases i s <;> simp [h]
  | settle => obtain ⟨-, h⟩ | ⟨-, h⟩ := settleRule_cases i s <;> simp [h]
  | sample =>
    obtain ⟨-, h⟩ | ⟨-, -, h⟩ | ⟨-, -, h⟩ := sampleRule_cases i s <;> simp only [h]
    · simp
    · unfold sampleAdvance
      split <;> simp
    · obtain ⟨-, h'⟩ | ⟨-, h'⟩ := sampleAdvance_cases s <;> simp [h']
  | deassert =>
    obtain ⟨-, h⟩ | ⟨-, -, h⟩ | ⟨-, -, -, h⟩ | ⟨-, -, -, h⟩ := deassertRule_cases i s <;> simp [h]
  | finish => simp
  | initFailed => simp

end Sys2Proof.Machine
end

