-- ==== Sys2Proof/Machine/Bench.lean ====
section
/-! DEFINITION. Host programs (30_encoding.md R71, R72) run against the idealised keypad of 95_test_vectors.md section
E0. The bench is no part of the block (log entry 16): it chooses the inputs of each edge and calls `step`. -/

namespace Sys2Proof.Machine

/-- A line of a host program: host words, environment directives (R71) and pseudo-instructions (R72). -/
inductive Line where
  /-- One host command presented for `n` cycles. -/
  | host (i : Instr) (n : Nat)
  /-- `KEYS`: the keys held pressed from here on. -/
  | keys (pressed : List (Idx × Idx))
  /-- `FAIL drive(r, L)`. -/
  | failDrive (r : Idx) (level : Bool)
  /-- `COLERR c`. -/
  | colErr (c : Idx)
  /-- `COLFATAL c`. -/
  | colFatal (c : Idx)
  /-- `WAITIDLE`. -/
  | waitIdle
  /-- `WAITDONE`. -/
  | waitDone
  /-- `SCAN L`. -/
  | scan (settleLen : Nat)
  /-- `CONSTRUCT`. -/
  | construct
  deriving DecidableEq, Repr

/-- The names of the mask bits under the default LAYOUT, bit 0 first (30_encoding.md R67). They are cosmetic: no rule
reads them. -/
def keyNames : List String :=
  ["KEY_1", "KEY_2", "KEY_3", "KEY_A", "KEY_4", "KEY_5", "KEY_6", "KEY_B", "KEY_7", "KEY_8", "KEY_9", "KEY_C",
    "KEY_STAR", "KEY_0", "KEY_HASH", "KEY_D"]

/-- The machine and its idealised environment. -/
structure Bench where
  machine : State
  pressed : List (Idx × Idx)
  failDrives : List (Idx × Bool)
  colErrs : List Idx
  colFatals : List Idx
  deriving DecidableEq, Repr

/-- The four lines on which `f` holds. -/
def linesOf (f : Idx → Bool) : Lines :=
  idxs.foldl (fun v k => setLine v k (f k)) 0b0000#4

/-- `col_in` of the ideal matrix: column `c` is high while some pressed key of it stands on a row commanded high (E0). -/
def Bench.colIn (b : Bench) : Lines :=
  linesOf fun c => b.pressed.any fun k => k.2 == c && lineBit b.machine.rowQ k.1

/-- The drive this cycle issues, if any. -/
def Bench.drive (b : Bench) : Option (Idx × Bool) :=
  if b.machine.drvReq then some (b.machine.drvRow, b.machine.drvLvl) else none

/-- The column this cycle samples, if any. -/
def Bench.sampled (b : Bench) : Option Idx :=
  if b.machine.phase = .sample && hasCol b.machine.cfg b.machine.c then some b.machine.c else none

/-- The inputs of the next edge, with the host word `H` on the ports. -/
def Bench.inputs (b : Bench) (H : Nat) : Inputs where
  rst := wordField H (b.machine.sw + 2) 1 == 1
  cmd := BitVec.ofNat 2 (wordField H b.machine.sw 2)
  settleLen := wordField H 0 b.machine.sw
  drvErr := b.drive.any fun d => d ∈ b.failDrives
  colIn := b.colIn
  colErr := linesOf fun c => b.sampled == some c && decide (c ∈ b.colErrs)
  colFatal := linesOf fun c => b.sampled == some c && decide (c ∈ b.colFatals)
  cfg := b.machine.cfg

/-- Drop from a list of directives the one that the event of this cycle has used. DESIGN CHOICE (log entry 16): of two
identical pending directives an event uses up one, so the second acts on the following such event; R71 says of each that
it acts on the next one, and not whether two share it. -/
def useUp {α : Type} [DecidableEq α] (e : Option α) (l : List α) : List α :=
  match e with
  | some a => l.erase a
  | none => l

/-- The bench after the edge whose inputs were `i`: a directive acts once, and an edge with `rst = 1` performs no drive
and no sample (R122). -/
def Bench.after (b : Bench) (i : Inputs) (t : State) : Bench :=
  if i.rst then { b with machine := t }
  else
    { b with
      machine := t
      failDrives := useUp b.drive b.failDrives
      colErrs := useUp b.sampled b.colErrs
      colFatals := useUp b.sampled b.colFatals }

/-- One edge of the bench with a host command on the ports. -/
def Bench.edge (b : Bench) (i : Instr) : Host.Outcome Bench Fault Refusal :=
  let inp := b.inputs (encode b.machine.sw i)
  match step { b.machine with pins := [inp] } with
  | .next t => .next (b.after inp t)
  | .fault f => .fault f
  | .refused q => .refused q

/-- Present `i` for up to `n` cycles, ending early in a cycle where `stop` holds. -/
def Bench.present (stop : State → Bool) (i : Instr) : Nat → Bench → Host.Outcome Bench Fault Refusal
  | 0, b => .next b
  | n + 1, b =>
    if stop b.machine then .next b
    else
      match b.edge i with
      | .next b' => Bench.present stop i n b'
      | .fault f => .fault f
      | .refused q => .refused q

/-- A bound on the NOPs of a wait: no scan and no construction lasts longer (41_scan_fsm.md R100). -/
def Bench.waitBound (b : Bench) : Nat := 4 * (2 ^ b.machine.sw - 1) + 30

/-- `WAITIDLE` (R72). -/
def Bench.waitIdle (b : Bench) : Host.Outcome Bench Fault Refusal :=
  b.present (fun s => !s.busy) .nop b.waitBound

/-- `WAITDONE` (R72). DESIGN CHOICE (log entry 16): no NOP is presented where `done` is 1 already; R72 says so of
`WAITIDLE` only. -/
def Bench.waitDone (b : Bench) : Host.Outcome Bench Fault Refusal :=
  b.present (fun s => s.done) .nop b.waitBound

/-- Run `f` on the next bench of an outcome. -/
def andThen (o : Host.Outcome Bench Fault Refusal) (f : Bench → Host.Outcome Bench Fault Refusal) :
    Host.Outcome Bench Fault Refusal :=
  match o with
  | .next b => f b
  | .fault r => .fault r
  | .refused r => .refused r

/-- One line of a host program (R71, R72). -/
def Bench.line (b : Bench) : Line → Host.Outcome Bench Fault Refusal
  | .host i n => b.present (fun _ => false) i n
  | .keys pressed => .next { b with pressed := pressed }
  | .failDrive r level => .next { b with failDrives := b.failDrives ++ [(r, level)] }
  | .colErr c => .next { b with colErrs := b.colErrs ++ [c] }
  | .colFatal c => .next { b with colFatals := b.colFatals ++ [c] }
  | .waitIdle => b.waitIdle
  | .waitDone => b.waitDone
  | .scan settleLen => andThen (b.edge (.read settleLen)) Bench.waitDone
  | .construct => andThen (b.edge .reset) Bench.waitIdle

/-- A host program, line by line. -/
def Bench.run : List Line → Bench → Host.Outcome Bench Fault Refusal
  | [], b => .next b
  | l :: ls, b => andThen (b.line l) (Bench.run ls)

/-- A block wired as `cfg`, right after reset, with no key pressed and no directive pending. -/
def Bench.start (sw : Nat) (cfg : Cfg) : Bench where
  machine := State.afterReset sw cfg
  pressed := []
  failDrives := []
  colErrs := []
  colFatals := []

end Sys2Proof.Machine
end

