-- ==== Sys2Proof/Tests/Slice0.lean ====
section
/-! SUPPORT. Tests of the model on the vectors of 95_test_vectors.md, the WellFormed smoke test, and for every obligation
with hypotheses a state and operands that meet them. -/

namespace Sys2Proof.Tests

open Sys2Proof.Machine

/-! ### Helpers -/

/-- A quiet edge on the default board. -/
def quiet : Inputs := Inputs.quiet Config.defaultCfg

/-- A quiet edge on a given board. -/
def quietOn (cfg : Cfg) : Inputs := Inputs.quiet cfg

/-- The default board at a state word, one quiet edge listed. -/
def at_ (p : Phase) (r c : Idx) : State := { State.reset with phase := p, r := r, c := c, pins := [quiet] }

/-- The state with these inputs at its next edge, on the board they present. -/
def under (s : State) (i : Inputs) : State := { s with pins := [i], cfg := i.cfg }

/-- The outcome is a next state of which `f` holds. -/
def nextIs (o : Host.Outcome State Fault Refusal) (f : State → Bool) : Bool :=
  match o with
  | .next t => f t
  | .fault _ => false
  | .refused _ => false

/-- The outcome is that fault. -/
def faultIs (o : Host.Outcome State Fault Refusal) (f : Fault) : Bool :=
  match o with
  | .next _ => false
  | .fault g => g == f
  | .refused _ => false

/-- The outcome is that refusal. -/
def refusalIs (o : Host.Outcome State Fault Refusal) (f : Refusal) : Bool :=
  match o with
  | .next _ => false
  | .fault _ => false
  | .refused g => g == f

/-- A board of these rows and columns. -/
def board (rows cols : Lines) (fatal : Bool) : Cfg :=
  { rowPresent := rows, colPresent := cols, layout := Config.defaultLayout, colFatalEn := fatal }

/-! ### WellFormed smoke: each check refuses an ill-formed term -/

theorem test_wf_read : (Instr.read 65536).wf 16 = false := by decide
theorem test_wf_init : (Instr.init 0#2 1#2).wf 16 = false := by decide
theorem test_wf_idle_r : (Instr.idle 1#2 0#2).wf 16 = false := by decide
theorem test_wf_idle_c : (Instr.idle 0#2 1#2).wf 16 = false := by decide
theorem test_wf_row : (Instr.row 0#2 2#2).wf 16 = false := by decide
theorem test_wf_settle : (Instr.settle 3#2 3#2).wf 16 = false := by decide
theorem test_wf_deassert : (Instr.deassert 1#2 1#2).wf 16 = false := by decide
theorem test_wf_finish_r : (Instr.finish 2#2 0#2).wf 16 = false := by decide
theorem test_wf_finish_c : (Instr.finish 3#2 1#2).wf 16 = false := by decide
theorem test_wf_initFailed_r : (Instr.initFailed 1#2 0#2).wf 16 = false := by decide
theorem test_wf_initFailed_c : (Instr.initFailed 0#2 2#2).wf 16 = false := by decide
theorem test_wf_accepts : (Instr.read 65535).wf 16 = true ∧ (Instr.finish 3#2 0#2).wf 16 = true := by decide

/-! ### Decoding, each word written out from 30_encoding.md R58 and R61; values of 95_test_vectors.md E0 -/

theorem test_decode_reset : decodeTableWord 24 0b1000000000000000000 = some .reset := by decide
theorem test_decode_reset_with_cmd : decodeTableWord 24 0x50000 = some .reset := by decide
theorem test_decode_nop : decodeTableWord 24 0b0000000000000000000 = some .nop := by decide
theorem test_decode_read : decodeTableWord 24 0b0010000000000000111 = some (.read 7) := by decide
theorem test_decode_read_max : decodeTableWord 24 0x1FFFF = some (.read 65535) := by decide
theorem test_decode_rsv2 : decodeTableWord 24 0b0100000000000000000 = some .rsv2 := by decide
theorem test_decode_rsv3 : decodeTableWord 24 0b0110000000000000000 = some .rsv3 := by decide
theorem test_decode_init : decodeTableWord 8 0b0001100 = some (.init 3#2 0#2) := by decide
theorem test_decode_idle : decodeTableWord 8 0b0010000 = some (.idle 0#2 0#2) := by decide
theorem test_decode_row : decodeTableWord 8 0b0101000 = some (.row 2#2 0#2) := by decide
theorem test_decode_settle : decodeTableWord 8 0b0110100 = some (.settle 1#2 0#2) := by decide
theorem test_decode_sample : decodeTableWord 8 0b1001101 = some (.sample 3#2 1#2) := by decide
theorem test_decode_deassert : decodeTableWord 8 0b1010100 = some (.deassert 1#2 0#2) := by decide
theorem test_decode_finish : decodeTableWord 8 0b1101100 = some (.finish 3#2 0#2) := by decide
theorem test_decode_initFailed : decodeTableWord 8 0b1110000 = some (.initFailed 0#2 0#2) := by decide
theorem test_decode_refuses_wide_host : decodeHost 16 0x80000 = .error .hostWordTooWide := by rfl
theorem test_decode_refuses_wide_state : decodeState 0x80 = .error .stateWordTooWide := by rfl
theorem test_decode_narrow_counter : decode 4 .hostcmd 0b0011010 = .ok (.read 10) := by rfl
theorem test_encode_values :
    encode 16 .reset = 0x40000 ∧ encode 16 (.read 2) = 0x10002 ∧ encode 16 (.row 2#2 0#2) = 0x28 ∧
      encode 16 (.sample 3#2 3#2) = 0x4F := by decide

/-! ### LAYOUT encodings (95_test_vectors.md E0) -/

theorem test_layout_reversed :
    layoutRead 0x0123456789ABCDEF#64 1#2 1#2 = 10#4 ∧ layoutRead 0x0123456789ABCDEF#64 3#2 0#2 = 3#4 ∧
      layoutWellFormed 0x0123456789ABCDEF#64 = true := by decide
theorem test_layout_zero_refused : layoutWellFormed 0#64 = false := by decide
theorem test_layout_swapped :
    layoutRead 0xFEDCBA9876543201#64 0#2 0#2 = 1#4 ∧ layoutRead 0xFEDCBA9876543201#64 0#2 1#2 = 0#4 := by decide

/-! ### Host commands (95_test_vectors.md E2; the vector's name in each comment) -/

/-- V-H1. -/
theorem test_nop : nextIs (exec .nop { at_ .idle 0#2 0#2 with maskQ := 0x0010#16, validQ := true, doneQ := true })
    (fun t => t.phase = .idle && !t.doneQ && t.maskQ == 0x0010#16 && t.validQ) := by decide
/-- V-H2. -/
theorem test_read : nextIs (exec (.read 3)
      { at_ .idle 0#2 0#2 with acc := 0x1234#16, errCodeQ := 1#3, errRowQ := 2#2, errColQ := 1#2, maskQ := 0x0042#16 })
    (fun t => t.phase = .row && t.acc == 0#16 && t.lenQ == 3 && t.errCodeQ == 0#3 && t.errColQ == 0#2 &&
      t.maskQ == 0x0042#16) := by decide
/-- V-H6: a READ in SETTLE is lost. -/
theorem test_read_lost : nextIs (exec (.read 2) { at_ .settle 1#2 0#2 with cnt := 5, lenQ := 9 })
    (fun t => t.phase = .settle && t.cnt == 4 && t.lenQ == 9) := by decide
/-- V-H4. -/
theorem test_rsv2 : nextIs (exec .rsv2 (at_ .idle 0#2 0#2)) (fun t => t.phase = .idle && !t.doneQ) := by decide
/-- V-H5. -/
theorem test_rsv3 : nextIs (exec .rsv3 { at_ .idle 0#2 0#2 with doneQ := true })
    (fun t => t.phase = .idle && !t.doneQ) := by decide
/-- V-H9. -/
theorem test_reset : nextIs (step (under { at_ .sample 1#2 2#2 with rowQ := 0b0010#4, acc := 0x0050#16, maskQ := 3#16 }
      { quiet with rst := true }))
    (fun t => t.phase = .init && t.r == 0#2 && t.rowQ == 0#4 && t.maskQ == 0#16) := by decide
/-- V-H11: `drv_err` is ignored under reset. -/
theorem test_reset_ignores_drv_err : nextIs (step (under (at_ .init 2#2 0#2) { quiet with rst := true, drvErr := true }))
    (fun t => t.phase = .init && t.r == 0#2 && t.errCodeQ == 0#3) := by decide

/-! ### Scan micro-operations (95_test_vectors.md E2) -/

/-- V-I2: an absent row ignores `drv_err`. -/
theorem test_init_absent :
    nextIs (exec (.init 2#2 0#2) (under (at_ .init 2#2 0#2)
      { quietOn (board 0b1011#4 0b1111#4 false) with drvErr := true }))
      (fun t => t.phase = .init && t.r == 3#2 && t.errCodeQ == 0#3) := by decide
/-- V-I4. -/
theorem test_init_fails :
    nextIs (exec (.init 1#2 0#2) (under (at_ .init 1#2 0#2)
      { quietOn (board 0b1011#4 0b1111#4 false) with drvErr := true }))
      (fun t => t.phase = .initFailed && t.r == 0#2 && t.errCodeQ == 4#3 && t.errRowQ == 1#2 && !t.doneQ) := by decide
/-- R80: READ on `cmd = 01`. -/
theorem test_idle_read : nextIs (exec (.idle 0#2 0#2) (under (at_ .idle 0#2 0#2)
      { quiet with cmd := 1#2, settleLen := 65535 }))
    (fun t => t.phase = .row && t.lenQ == 65535) := by decide
/-- V-H4 seen from the phase rule. -/
theorem test_idle_rsv2 : nextIs (exec (.idle 0#2 0#2) (under (at_ .idle 0#2 0#2) { quiet with cmd := 2#2 }))
    (fun t => t.phase = .idle) := by decide
/-- V-W3. -/
theorem test_row_asserts : nextIs (exec (.row 1#2 0#2) { at_ .row 1#2 0#2 with lenQ := 2 })
    (fun t => t.phase = .settle && t.rowQ == 0b0010#4 && t.cnt == 2) := by decide
/-- V-W4. -/
theorem test_row_fails : nextIs (exec (.row 2#2 0#2) (under { at_ .row 2#2 0#2 with acc := 0x0042#16 }
      { quiet with drvErr := true }))
    (fun t => t.phase = .idle && t.r == 0#2 && t.errCodeQ == 1#3 && t.errRowQ == 2#2 && t.doneQ && t.rowQ == 0#4 &&
      t.acc == 0x0042#16) := by decide
/-- V-S1. -/
theorem test_settle_counts : nextIs (exec (.settle 1#2 0#2) { at_ .settle 1#2 0#2 with cnt := 2 })
    (fun t => t.phase = .settle && t.cnt == 1) := by decide
/-- V-S2a. -/
theorem test_settle_ends : nextIs (exec (.settle 1#2 0#2) (at_ .settle 1#2 0#2))
    (fun t => t.phase = .sample && t.r == 1#2 && t.c == 0#2) := by decide
/-- V-M10: reversed LAYOUT. -/
theorem test_sample_reversed : nextIs (exec (.sample 1#2 1#2) (under (at_ .sample 1#2 1#2)
      { quietOn { Config.defaultCfg with layout := 0x0123456789ABCDEF#64 } with colIn := 0b0010#4 }))
    (fun t => t.phase = .sample && t.c == 2#2 && t.acc == 0x0400#16) := by decide
/-- V-M6. -/
theorem test_sample_fatal : nextIs (exec (.sample 1#2 2#2) (under { at_ .sample 1#2 2#2 with acc := 1#16 }
      { quietOn (board 0b1111#4 0b1111#4 true) with colIn := 0b0100#4, colFatal := 0b0100#4 }))
    (fun t => t.phase = .deassert && t.c == 0#2 && t.pendFatal && t.errColQ == 2#2 && t.acc == 1#16) := by decide
/-- V-D4. -/
theorem test_deassert_reports : nextIs (exec (.deassert 0#2 0#2)
      { at_ .deassert 0#2 0#2 with rowQ := 1#4, pendFatal := true, errColQ := 2#2 })
    (fun t => t.phase = .idle && t.errCodeQ == 3#3 && t.errColQ == 2#2 && t.rowQ == 0#4 && !t.pendFatal && t.doneQ) := by
  decide
/-- V-D5. -/
theorem test_deassert_fails : nextIs (exec (.deassert 0#2 0#2)
      (under { at_ .deassert 0#2 0#2 with rowQ := 1#4, pendFatal := true, errColQ := 2#2 } { quiet with drvErr := true }))
    (fun t => t.phase = .idle && t.errCodeQ == 2#3 && t.errColQ == 2#2 && t.rowQ == 1#4 && !t.pendFatal && t.doneQ) := by
  decide
/-- V-F1. -/
theorem test_finish : nextIs (exec (.finish 3#2 0#2) { at_ .finish 3#2 0#2 with acc := 0x8001#16, maskQ := 3#16 })
    (fun t => t.phase = .idle && t.r == 0#2 && t.maskQ == 0x8001#16 && t.validQ && t.doneQ) := by decide
/-- V-X1. -/
theorem test_initFailed : nextIs (step (under { at_ .initFailed 0#2 0#2 with errCodeQ := 4#3 }
      { quiet with cmd := 1#2, settleLen := 1 }))
    (fun t => t.phase = .initFailed && !t.busy && t.err) := by decide

/-! ### Outputs and the bench -/

/-- V-I1: the drive ports in an INIT cycle. -/
theorem test_outputs_init :
    (at_ .init 0#2 0#2).drvReq = true ∧ (at_ .init 0#2 0#2).drvRow = 0#2 ∧ (at_ .init 0#2 0#2).drvLvl = false ∧
      (at_ .init 0#2 0#2).busy = true := by decide
/-- `state_word` of SAMPLE at row 3, column 3 is 0x4F. -/
theorem test_state_word : (at_ .sample 3#2 3#2).stateWord = 0x4F := by decide
/-- The ideal matrix of section E0: a key shows while its row is high. -/
theorem test_bench_matrix :
    ({ Bench.start 16 Config.defaultCfg with
        machine := { State.reset with rowQ := 0b0010#4 }, pressed := [(1#2, 2#2), (0#2, 3#2)] }).colIn = 0b0100#4 := by
  decide

/-! ### What the host asks: the next step after placing a word runs it -/

theorem test_fetch_read : nextIs (step (State.reset.withFetchWord 24 0x10003)) (fun t => t.phase = .row && t.lenQ == 3) := by
  decide
theorem test_fetch_row : nextIs (step (State.reset.withFetchWord 8 0x28)) (fun t => t.phase = .settle && t.rowQ == 4#4) := by
  decide

/-! ### Witnesses: for each obligation with hypotheses, a state and operands that meet them -/

theorem witness_DecodeEncodeRoundTrip : (Instr.read 15).wf 4 = true := by decide
theorem witness_EveryHostWordNamesOneCommand : 127 < 2 ^ (4 + 3) := by decide
theorem witness_StepRunsTheDecodedInstruction :
    decode (at_ .idle 0#2 0#2).sw .hostcmd (at_ .idle 0#2 0#2).hostWord = .ok .nop ∧
      (at_ .row 3#2 0#2).now.rst = false ∧
      decode (at_ .row 3#2 0#2).sw .state (at_ .row 3#2 0#2).stateWord = .ok (.row 3#2 0#2) := ⟨rfl, rfl, rfl⟩
theorem witness_EveryEdgeHasASuccessor :
    (under (at_ .idle 1#2 1#2) { quiet with rst := true }).now.rst = true ∧ (at_ .finish 3#2 0#2).HostDuties ∧
      (at_ .finish 3#2 0#2).WordReachable ∧ (at_ .finish 3#2 0#2).CodeAssigned := by decide

/-- A state before the first reset edge. -/
def unlaunched : State := { at_ .idle 0#2 0#2 with launched := false }

theorem witness_RunNotBegunInResetIsRefused :
    unlaunched.launched = false ∧ unlaunched.now.rst = false ∧
      (under unlaunched { quiet with rst := true }).launched = false ∧
      (under unlaunched { quiet with rst := true }).now.rst = true := by decide

/-- The host changes ROW_PRESENT out of reset. -/
def changed : State := { at_ .idle 0#2 0#2 with pins := [quietOn (board 0b0001#4 0b1111#4 false)] }

/-- A board whose LAYOUT cells are all 0. -/
def badLayout : State := under (at_ .idle 0#2 0#2) (quietOn { Config.defaultCfg with layout := 0#64 })

theorem witness_BadParametersAreRefused :
    changed.launched = true ∧ changed.now.rst = false ∧ changed.now.cfg ≠ changed.cfg ∧ badLayout.launched = true ∧
      badLayout.now.rst = false ∧ badLayout.now.cfg = badLayout.cfg ∧ layoutWellFormed badLayout.cfg.layout = false := by
  decide
theorem witness_UnreachableStateWordFaults :
    (at_ .init 0#2 0#2).HostDuties ∧ (microOp .finish 2#2 0#2).wf 16 = false := by decide
theorem witness_ReservedErrorCodeFaults :
    ({ at_ .idle 0#2 0#2 with errCodeQ := 5#3 }).HostDuties ∧ ({ at_ .idle 0#2 0#2 with errCodeQ := 5#3 }).WordReachable ∧
      ({ at_ .idle 0#2 0#2 with errCodeQ := 5#3 }).now.rst = false ∧
      0b100#3 < ({ at_ .idle 0#2 0#2 with errCodeQ := 5#3 }).errCodeQ := by decide
theorem witness_ResetWritesEveryRegister : (under (at_ .settle 1#2 0#2) { quiet with rst := true }).now.rst = true := by
  decide
/-- The hypotheses of NopInIdleOnlyClearsDone, ReadInIdleStartsAScan (with the largest operand) and
ReservedCommandsActAsNop. -/
theorem witness_commandsInIdle :
    (at_ .idle 0#2 0#2).At .idle 0#2 ∧ (at_ .idle 0#2 0#2).now.cfg = (at_ .idle 0#2 0#2).cfg ∧
      65535 < 2 ^ (at_ .idle 0#2 0#2).sw := by decide
theorem witness_CommandOutsideIdleIsIgnored : (at_ .finish 3#2 0#2).phase ≠ .idle := by decide
/-- The hypotheses of the eight statements about micro-operations, InitDrivesPresentRowLow to InitFailedHolds. -/
theorem witness_microOps : (at_ .row 3#2 0#2).HostDuties ∧ (at_ .row 3#2 0#2).CodeAssigned := by decide
/-- Every branch of those statements is met: absent and present rows, a failing and a good drive, rows 0 and 3. -/
theorem witness_microOp_branches :
    hasRow (board 0b0111#4 0b1111#4 true) 3#2 = false ∧ hasRow (board 0b0111#4 0b1111#4 true) 0#2 = true ∧
      fatalColumn (board 0b0111#4 0b1111#4 true) { quiet with colFatal := 8#4 } 3#2 = true ∧
      pressedColumn (board 0b0111#4 0b1111#4 true) { quiet with colIn := 8#4 } 3#2 = true := by decide

/-- A scanned row whose deassert fails. -/
def lowFails : State := under { at_ .deassert 3#2 0#2 with rowQ := 8#4 } { quiet with drvErr := true }

theorem witness_AbortRecordsItsCause :
    ∃ t, step lowFails = .next t ∧ lowFails.now.rst = false ∧ t.doneQ = true ∧ lowFails.phase ≠ .finish :=
  ⟨_, rfl, rfl, rfl, by decide⟩
theorem witness_AbortRecordsItsCause_row :
    ∃ t, step (under (at_ .row 0#2 0#2) { quiet with drvErr := true }) = .next t ∧ t.doneQ = true := ⟨_, rfl, rfl⟩
theorem witness_AbortRecordsItsCause_fatal :
    ∃ t, step { at_ .deassert 0#2 0#2 with pendFatal := true } = .next t ∧ t.doneQ = true ∧ t.errCodeQ = 3#3 :=
  ⟨_, rfl, rfl, rfl⟩
theorem witness_ErrorStatusWriters :
    ∃ t, step lowFails = .next t ∧ lowFails.now.rst = false ∧ t.errCodeQ ≠ lowFails.errCodeQ :=
  ⟨_, rfl, rfl, by decide⟩
theorem witness_ErrorStatusWriters_col :
    ∃ t, step (under (at_ .sample 0#2 3#2) { quietOn (board 0b1111#4 0b1111#4 true) with colFatal := 8#4 }) = .next t ∧
      t.errColQ ≠ 0#2 := ⟨_, rfl, by decide⟩
theorem witness_InvariantKeptByEveryStep : State.reset.Inv ∧ ∃ t, step (at_ .init 0#2 0#2) = .next t :=
  ⟨by decide, _, rfl⟩
theorem witness_InvariantKeptByEveryStep_scan :
    ({ at_ .deassert 3#2 0#2 with rowQ := 8#4 }).Inv ∧ ∃ t, step { at_ .deassert 3#2 0#2 with rowQ := 8#4 } = .next t :=
  ⟨by decide, _, rfl⟩

/-- A scanned row about to be deasserted without failure. -/
def lowSucceeds : State := { at_ .deassert 3#2 0#2 with rowQ := 8#4 }

theorem witness_OnlyTheScannedRowIsHigh :
    lowSucceeds.OnlyScannedRowHigh ∧ lowSucceeds.deassertFails = false ∧ ∃ t, step lowSucceeds = .next t :=
  ⟨by decide, by decide, _, rfl⟩
theorem witness_AtMostOneRowHighAlongRuns :
    lowSucceeds.OnlyScannedRowHigh ∧ (∀ j < 1, ∀ u, run j lowSucceeds = .next u → u.deassertFails = false) ∧
      ∃ t, run 1 lowSucceeds = .next t ∧ t.phase = .finish := by
  refine ⟨by decide, ?_, _, rfl, rfl⟩
  intro j hj u hu
  obtain rfl : j = 0 := by omega
  cases hu
  decide
theorem witness_TransitionTableIsComplete :
    (at_ .settle 3#2 0#2).WordReachable ∧ ∃ t, step (at_ .settle 3#2 0#2) = .next t := ⟨by decide, _, rfl⟩
/-- The hypotheses of MaskWrittenOnlyByFinishOrReset, AccumulatorLaw, RowRegisterFollowsDrives, CounterLaw and
ParametersAreHeld, in FINISH and in ROW. -/
theorem witness_edgeLaws :
    (∃ t, step (at_ .finish 3#2 0#2) = .next t ∧ (at_ .finish 3#2 0#2).now.rst = false) ∧
      ∃ t, step (at_ .row 3#2 0#2) = .next t ∧ (at_ .row 3#2 0#2).now.rst = false := ⟨⟨_, rfl, rfl⟩, _, rfl, rfl⟩
theorem witness_PulseAndPendingLaw :
    lowSucceeds.Inv ∧ (∃ t, step lowSucceeds = .next t) ∧ lowSucceeds.now.rst = false := ⟨by decide, ⟨_, rfl⟩, rfl⟩
theorem witness_PadLevelIsKnownUnlessADriveFailed :
    lineBit lowFails.padUnknown 3#2 = false ∧ ∃ t, step lowFails = .next t ∧ lineBit t.padUnknown 3#2 = true :=
  ⟨by decide, _, rfl, by decide⟩
/-- The hypotheses of DistinctKeysOwnDistinctBits and of MaskBitBelongsToOneKey. -/
theorem witness_DistinctKeysOwnDistinctBits :
    layoutWellFormed 0x0123456789ABCDEF#64 = true ∧ ((0#2, 0#2) : Idx × Idx) ≠ (3#2, 3#2) := by decide
theorem witness_OtherColumnsAreNotRead :
    (at_ .sample 0#2 3#2).phase = .sample ∧ { quiet with colIn := 7#4 } ≠ quiet ∧
      ({ quiet with colIn := 7#4 }).rst = false ∧ quiet.rst = false ∧ ({ quiet with colIn := 7#4 }).cfg = quiet.cfg ∧
      lineBit ({ quiet with colIn := 7#4 }).colIn 3#2 = lineBit quiet.colIn 3#2 ∧
      lineBit ({ quiet with colIn := 7#4 }).colErr 3#2 = lineBit quiet.colErr 3#2 ∧
      lineBit ({ quiet with colIn := 7#4 }).colFatal 3#2 = lineBit quiet.colFatal 3#2 := by decide
/-- Column 3 is absent and reported fatal under the enabled option. -/
def absentFatal : Inputs := { quietOn (board 0b1111#4 0b0111#4 true) with colFatal := 8#4 }

theorem witness_AbsentColumnIsNeutral :
    (under (at_ .sample 0#2 3#2) absentFatal).phase = .sample ∧
      hasCol (under (at_ .sample 0#2 3#2) absentFatal).cfg 3#2 = false ∧ absentFatal.rst = false ∧
      absentFatal ≠ quietOn absentFatal.cfg ∧ (quietOn absentFatal.cfg).rst = false ∧
      absentFatal.cfg = (quietOn absentFatal.cfg).cfg ∧
      nextIs (step (under (at_ .sample 0#2 3#2) absentFatal)) (fun t => t.phase = .deassert) := by decide
theorem witness_PhasesReadOnlyTheirInputs :
    (at_ .settle 0#2 0#2).phase = .settle ∧ (at_ .finish 3#2 0#2).phase = .finish ∧
      (at_ .initFailed 0#2 0#2).phase = .initFailed ∧ hasRow (board 0b0111#4 0b1111#4 true) 3#2 = false ∧
      (at_ .deassert 3#2 0#2).phase = .deassert ∧ (at_ .idle 0#2 0#2).phase = .idle ∧
      { quiet with colErr := 1#4 } ≠ quiet ∧ ({ quiet with colErr := 1#4 }).drvErr = quiet.drvErr ∧
      ({ quiet with colErr := 1#4 }).rst = false ∧ quiet.rst = false ∧
      ({ quiet with colErr := 1#4 }).cfg = quiet.cfg ∧ ({ quiet with colErr := 1#4 }).cmd = quiet.cmd ∧
      ({ quiet with colErr := 1#4 }).settleLen = quiet.settleLen := by decide
theorem witness_ResetReadsNoOtherInput :
    ({ quiet with rst := true, drvErr := true }).rst = true ∧
      { quiet with rst := true, drvErr := true } ≠ { quiet with rst := true } ∧
      ({ quiet with rst := true, drvErr := true }).cfg = quiet.cfg := by decide

/-- The default board at a state word with `n` quiet edges listed. -/
def steadyAt (p : Phase) (r : Idx) (n : Nat) : State :=
  { State.reset with phase := p, r := r, pins := List.replicate n quiet }

theorem witness_SettleLastsOneMoreThanTheCount :
    ({ steadyAt .settle 3#2 3 with cnt := 2 }).At .settle 3#2 ∧ ({ steadyAt .settle 3#2 3 with cnt := 2 }).Steady 3 := by
  decide
theorem witness_ConstructionTakesFourEdges :
    (steadyAt .init 0#2 4).At .init 0#2 ∧ (steadyAt .init 0#2 4).Steady 4 ∧
      ∀ r ∈ idxs, hasRow (steadyAt .init 0#2 4).cfg r = true → ((steadyAt .init 0#2 4).inputAt r.toNat).drvErr = false := by
  decide

/-- Construction with a failure at row 3, the last one. -/
def constructionFails : State :=
  { steadyAt .init 0#2 0 with pins := [quiet, quiet, quiet, { quiet with drvErr := true }] }

theorem witness_ConstructionFailsAtFirstFailedRow :
    constructionFails.At .init 0#2 ∧ constructionFails.Steady 4 ∧
      (∀ r ∈ idxs, r.toNat < 3 → hasRow constructionFails.cfg r = true →
        (constructionFails.inputAt r.toNat).drvErr = false) ∧
      hasRow constructionFails.cfg 3#2 = true ∧ (constructionFails.inputAt 3).drvErr = true := by decide
theorem witness_InitFailedIsTerminal :
    (steadyAt .initFailed 0#2 2).At .initFailed 0#2 ∧ (steadyAt .initFailed 0#2 2).doneQ = false ∧
      (steadyAt .initFailed 0#2 2).Steady 2 := by decide
theorem witness_IdleHoldsWithoutRead :
    (steadyAt .idle 0#2 2).At .idle 0#2 ∧ (steadyAt .idle 0#2 2).Steady 2 ∧
      ∀ i ∈ (steadyAt .idle 0#2 2).pins.take 2, i.cmd ≠ 1#2 := by decide

/-- READ 0 in IDLE on a board, with the edges from the next one on given by `f`. -/
def reading (cfg : Cfg) (sw n : Nat) (f : Nat → Inputs → Inputs) : State :=
  { State.afterReset sw cfg with
    phase := .idle
    pins := { quietOn cfg with cmd := 1#2 } :: (List.range n).map fun k => f (k + 1) (quietOn cfg) }

/-- Rows 0 and 3 wired, columns 0 and 3 wired, key (3, 0) pressed all the time. -/
def scanning : State := reading (board 0b1001#4 0b1001#4 true) 4 17 fun _ i => { i with colIn := 1#4 }

/-- The hypotheses of ScanPublishesTheSampledKeys and of ScanEventsAreInOrder. -/
theorem witness_scanSucceeds :
    scanning.At .idle 0#2 ∧ 0 = scanning.now.settleLen % 2 ^ scanning.sw ∧ scanning.now.cmd = 1#2 ∧
      scanning.Steady (finishEdge scanning.cfg 0 + 1) ∧ ∀ r ∈ idxs, scanning.RowSucceeds 0 r := by decide
theorem witness_EveryScanEndsWithinTheBound :
    (reading (board 0b1001#4 0b1001#4 true) 1 33 fun _ i => i).At .idle 0#2 ∧
      (reading (board 0b1001#4 0b1001#4 true) 1 33 fun _ i => i).now.cmd = 1#2 ∧
      (reading (board 0b1001#4 0b1001#4 true) 1 33 fun _ i => i).Steady 34 := by decide

/-- Rows 0 and 3 wired; the drive-high of row 3 fails at edge 10. -/
def highFails : State := reading (board 0b1001#4 0b1111#4 true) 4 10 fun k i => { i with drvErr := k == 10 }

theorem witness_ScanAbortsAtFirstFailedRowHigh :
    highFails.At .idle 0#2 ∧ 0 = highFails.now.settleLen % 2 ^ highFails.sw ∧ highFails.now.cmd = 1#2 ∧
      highFails.rowQ = 0#4 ∧ highFails.Steady (rowEdge highFails.cfg 0 3#2 + 1) ∧
      (∀ r ∈ idxs, r.toNat < (3#2 : Idx).toNat → highFails.RowSucceeds 0 r) ∧ hasRow highFails.cfg 3#2 = true ∧
      (highFails.inputAt (rowEdge highFails.cfg 0 3#2)).drvErr = true := by decide

/-- Row 0 alone wired; its drive-low fails at edge 7. -/
def scanLowFails : State := reading (board 0b0001#4 0b1111#4 true) 4 7 fun k i => { i with drvErr := k == 7 }

theorem witness_ScanAbortsAtFirstFailedRowLow :
    scanLowFails.At .idle 0#2 ∧ 0 = scanLowFails.now.settleLen % 2 ^ scanLowFails.sw ∧ scanLowFails.now.cmd = 1#2 ∧
      scanLowFails.rowQ = 0#4 ∧ scanLowFails.Steady (deassertEdge scanLowFails.cfg 0 0#2 + 1) ∧
      (∀ r ∈ idxs, r.toNat < (0#2 : Idx).toNat → scanLowFails.RowSucceeds 0 r) ∧ hasRow scanLowFails.cfg 0#2 = true ∧
      (scanLowFails.inputAt (rowEdge scanLowFails.cfg 0 0#2)).drvErr = false ∧
      (∀ c ∈ idxs, fatalColumn scanLowFails.cfg (scanLowFails.inputAt (sampleEdge scanLowFails.cfg 0 0#2 c)) c = false) ∧
      (scanLowFails.inputAt (deassertEdge scanLowFails.cfg 0 0#2)).drvErr = true := by decide
theorem witness_UnwiredRowsReadZero :
    (reading (board 0#4 0#4 false) 4 5 fun _ i => { i with drvErr := true }).At .idle 0#2 ∧
      (reading (board 0#4 0#4 false) 4 5 fun _ i => { i with drvErr := true }).cfg.rowPresent = 0#4 ∧
      (reading (board 0#4 0#4 false) 4 5 fun _ i => { i with drvErr := true }).now.cmd = 1#2 ∧
      (reading (board 0#4 0#4 false) 4 5 fun _ i => { i with drvErr := true }).Steady 6 := by decide

/-- Row 3 and column 0 alone wired; the column is high exactly at edges 5 to 10. -/
def single : State :=
  reading (board 0b1000#4 0b0001#4 false) 4 11 fun k i => { i with colIn := if 4 < k && k ≤ 10 then 1#4 else 0#4 }

theorem witness_SingleKeyIsPublishedAlone :
    single.At .idle 0#2 ∧ 0 = single.now.settleLen % 2 ^ single.sw ∧ single.now.cmd = 1#2 ∧ single.rowQ = 0#4 ∧
      single.cfg.rowPresent = 1#4 <<< (3#2 : Idx).toNat ∧ single.cfg.colPresent = 1#4 <<< (0#2 : Idx).toNat ∧
      single.Steady (finishEdge single.cfg 0 + 1) ∧
      (∀ i ∈ single.pins, i.drvErr = false ∧ i.colErr = 0#4 ∧ i.colFatal = 0#4) ∧
      ∀ k ≤ finishEdge single.cfg 0, lineBit (single.inputAt k).colIn 0#2 =
        decide (rowEdge single.cfg 0 3#2 < k ∧ k ≤ rowEdge single.cfg 0 3#2 + 0 + 6) := by decide
theorem witness_RowLevelsAtTheEndOfAScan :
    lowFails.OnlyScannedRowHigh ∧ lowFails.busy = true ∧ lowFails.phase ≠ .init ∧
      ∃ t, step lowFails = .next t ∧ t.phase = .idle := ⟨by decide, by decide, by decide, _, rfl, rfl⟩
theorem witness_BackToBackScans :
    ({ steadyAt .finish 3#2 0 with pins := [quiet, { quiet with cmd := 1#2 }] }).At .finish 3#2 ∧
      ({ steadyAt .finish 3#2 0 with pins := [quiet, { quiet with cmd := 1#2 }] }).Steady 2 ∧
      (({ steadyAt .finish 3#2 0 with pins := [quiet, { quiet with cmd := 1#2 }] }).inputAt 1).cmd = 1#2 := by decide

/-! ### The stops -/

theorem test_stop_unreachable : faultIs (exec (.finish 0#2 0#2) (at_ .idle 0#2 0#2)) .unreachableStateWord := by decide
theorem test_stop_reserved_code : faultIs (step { at_ .idle 0#2 0#2 with errCodeQ := 7#3 }) .reservedErrorCode := by decide
theorem test_stop_unlaunched : refusalIs (step unlaunched) .runNotBegunInReset := by decide
theorem test_stop_changed : refusalIs (step changed) .staticParameterChanged := by decide
theorem test_stop_layout : refusalIs (step badLayout) .layoutNotPermutation := by decide

end Sys2Proof.Tests
end

section
/-! The parameters of the block across one edge (00_scope.md R7, 10_state.md R36, 20_memory.md R56). -/

namespace Sys2Proof.Machine

/-- An edge with `rst = 0` writes neither SW nor the held static parameters nor the launch flag. -/
theorem phaseEdge_keeps_parameters (s : State) :
    (phaseRule s.now s.beginEdge).sw = s.sw ∧ (phaseRule s.now s.beginEdge).cfg = s.cfg ∧
      (phaseRule s.now s.beginEdge).launched = s.launched := by
  obtain ⟨hsw, hcfg, hlaunched, -, -⟩ := phaseRule_keeps s.now s.beginEdge
  exact ⟨hsw, hcfg, hlaunched⟩

/-- Settles O36: a reset edge takes the presented parameters; at any other edge that completes, the host's duties say
that the presented parameters are the held ones, and the phase rule keeps them. -/
theorem parametersAreHeld : Obligations.ParametersAreHeld := by
  intro s t h
  obtain ⟨hrst, rfl⟩ | ⟨-, ⟨hlaunched, hheld, -⟩, -, -, rfl⟩ := step_cases h
  · simp [hrst]
  · obtain ⟨hsw, hcfg, hl⟩ := phaseEdge_keeps_parameters s
    exact ⟨hsw, hl.trans hlaunched, hcfg.trans hheld.symm, fun _ => hcfg⟩

end Sys2Proof.Machine
end

section
/-! What an edge with `rst = 0` can do, said once for the whole machine: one constructor for each branch of the phase rules
of 41_scan_fsm.md R79 to R86. The laws of the single registers are read off it. -/

namespace Sys2Proof.Machine

/-- `PhaseEdge s t`: one branch of R79 to R86 takes `s` to `t`. -/
inductive PhaseEdge (s : State) : State → Prop where
  /-- INIT passes an absent row. -/
  | initSkip (hp : s.phase = .init) (hrow : hasRow s.cfg s.r = false) : PhaseEdge s (initAdvance s.beginEdge)
  /-- INIT meets a failing row. -/
  | initFail (hp : s.phase = .init) (hrow : hasRow s.cfg s.r = true) (herr : s.now.drvErr = true) :
      PhaseEdge s
        { s.beginEdge with
          padUnknown := setLine s.padUnknown s.r true, errCodeQ := codeInitLowFail, errRowQ := s.r, r := 0#2,
          phase := .initFailed }
  /-- INIT drives a present row low. -/
  | initLow (hp : s.phase = .init) (hrow : hasRow s.cfg s.r = true) (herr : s.now.drvErr = false) :
      PhaseEdge s
        (initAdvance
          { s.beginEdge with rowQ := setLine s.rowQ s.r false, padUnknown := setLine s.padUnknown s.r false })
  /-- IDLE accepts READ. -/
  | read (hp : s.phase = .idle) (hcmd : s.now.cmd = 0b01#2) : PhaseEdge s (readRule s.now s.beginEdge)
  /-- IDLE waits. -/
  | wait (hp : s.phase = .idle) (hcmd : s.now.cmd ≠ 0b01#2) : PhaseEdge s s.beginEdge
  /-- ROW passes row 3, which is absent. -/
  | rowSkipLast (hp : s.phase = .row) (hrow : hasRow s.cfg s.r = false) (hr : s.r = 3#2) :
      PhaseEdge s { s.beginEdge with phase := .finish }
  /-- ROW passes an absent row before row 3. -/
  | rowSkip (hp : s.phase = .row) (hrow : hasRow s.cfg s.r = false) (hr : s.r ≠ 3#2) :
      PhaseEdge s { s.beginEdge with r := s.r + 1#2 }
  /-- ROW aborts: the drive-high failed. -/
  | rowFail (hp : s.phase = .row) (hrow : hasRow s.cfg s.r = true) (herr : s.now.drvErr = true) :
      PhaseEdge s
        (raiseHwIoFail codeRowHighFail s.r { s.beginEdge with padUnknown := setLine s.padUnknown s.r true })
  /-- ROW asserts a present row. -/
  | rowHigh (hp : s.phase = .row) (hrow : hasRow s.cfg s.r = true) (herr : s.now.drvErr = false) :
      PhaseEdge s
        { s.beginEdge with
          rowQ := setLine s.rowQ s.r true, padUnknown := setLine s.padUnknown s.r false, cnt := s.lenQ,
          phase := .settle }
  /-- SETTLE ends. -/
  | settleEnd (hp : s.phase = .settle) (hcnt : s.cnt = 0) : PhaseEdge s { s.beginEdge with phase := .sample }
  /-- SETTLE counts down. -/
  | settleCount (hp : s.phase = .settle) (hcnt : s.cnt ≠ 0) : PhaseEdge s { s.beginEdge with cnt := s.cnt - 1 }
  /-- SAMPLE finds an enabled fatal column. -/
  | sampleFatal (hp : s.phase = .sample) (hfatal : fatalColumn s.cfg s.now s.c = true) :
      PhaseEdge s { s.beginEdge with pendFatal := true, errColQ := s.c, c := 0#2, phase := .deassert }
  /-- SAMPLE accumulates a pressed key. -/
  | samplePressed (hp : s.phase = .sample) (hfatal : fatalColumn s.cfg s.now s.c = false)
      (hkey : pressedColumn s.cfg s.now s.c = true) :
      PhaseEdge s (sampleAdvance { s.beginEdge with acc := s.acc ||| keyMask s.cfg.layout s.r s.c })
  /-- SAMPLE passes a column that reads 0. -/
  | sampleReleased (hp : s.phase = .sample) (hfatal : fatalColumn s.cfg s.now s.c = false)
      (hkey : pressedColumn s.cfg s.now s.c = false) : PhaseEdge s (sampleAdvance s.beginEdge)
  /-- DEASSERT aborts: the drive-low failed. -/
  | lowFail (hp : s.phase = .deassert) (herr : s.now.drvErr = true) :
      PhaseEdge s
        (raiseHwIoFail codeRowLowFail s.r { s.beginEdge with padUnknown := setLine s.padUnknown s.r true })
  /-- DEASSERT aborts: the row is low, and a fatal column is reported. -/
  | lowFatal (hp : s.phase = .deassert) (herr : s.now.drvErr = false) (hpend : s.pendFatal = true) :
      PhaseEdge s
        (raiseHwIoFail codeColFatal s.r
          { s.beginEdge with rowQ := setLine s.rowQ s.r false, padUnknown := setLine s.padUnknown s.r false })
  /-- DEASSERT ends the scan of row 3. -/
  | lowLast (hp : s.phase = .deassert) (herr : s.now.drvErr = false) (hpend : s.pendFatal = false) (hr : s.r = 3#2) :
      PhaseEdge s
        { s.beginEdge with
          rowQ := setLine s.rowQ s.r false, padUnknown := setLine s.padUnknown s.r false, phase := .finish }
  /-- DEASSERT goes on to the next row. -/
  | lowNext (hp : s.phase = .deassert) (herr : s.now.drvErr = false) (hpend : s.pendFatal = false) (hr : s.r ≠ 3#2) :
      PhaseEdge s
        { s.beginEdge with
          rowQ := setLine s.rowQ s.r false, padUnknown := setLine s.padUnknown s.r false, r := s.r + 1#2,
          phase := .row }
  /-- FINISH publishes. -/
  | publish (hp : s.phase = .finish) : PhaseEdge s (finishRule s.now s.beginEdge)
  /-- INIT_FAILED stays. -/
  | failed (hp : s.phase = .initFailed) : PhaseEdge s s.beginEdge

/-- The phase rule of R78 takes one of the branches. -/
theorem phaseEdge_phaseRule (s : State) : PhaseEdge s (phaseRule s.now s.beginEdge) := by
  unfold phaseRule
  rw [State.beginEdge_phase]
  cases hp : s.phase with
  | init =>
    obtain ⟨hrow, h⟩ | ⟨hrow, herr, h⟩ | ⟨hrow, herr, h⟩ := initRule_cases s.now s.beginEdge <;> simp only [h]
    · exact .initSkip hp hrow
    · exact .initFail hp hrow herr
    · exact .initLow hp hrow herr
  | idle =>
    obtain ⟨hcmd, h⟩ | ⟨hcmd, h⟩ := idleRule_cases s.now s.beginEdge <;> simp only [h]
    · exact .read hp hcmd
    · exact .wait hp hcmd
  | row =>
    obtain ⟨hrow, hr, h⟩ | ⟨hrow, hr, h⟩ | ⟨hrow, herr, h⟩ | ⟨hrow, herr, h⟩ := rowRule_cases s.now s.beginEdge <;>
      simp only [h]
    · exact .rowSkipLast hp hrow hr
    · exact .rowSkip hp hrow hr
    · exact .rowFail hp hrow herr
    · exact .rowHigh hp hrow herr
  | settle =>
    obtain ⟨hcnt, h⟩ | ⟨hcnt, h⟩ := settleRule_cases s.now s.beginEdge <;> simp only [h]
    · exact .settleEnd hp hcnt
    · exact .settleCount hp hcnt
  | sample =>
    obtain ⟨hfatal, h⟩ | ⟨hfatal, hkey, h⟩ | ⟨hfatal, hkey, h⟩ := sampleRule_cases s.now s.beginEdge <;> simp only [h]
    · exact .sampleFatal hp hfatal
    · exact .samplePressed hp hfatal hkey
    · exact .sampleReleased hp hfatal hkey
  | deassert =>
    obtain ⟨herr, h⟩ | ⟨herr, hpend, h⟩ | ⟨herr, hpend, hr, h⟩ | ⟨herr, hpend, hr, h⟩ :=
      deassertRule_cases s.now s.beginEdge <;> simp only [h]
    · exact .lowFail hp herr
    · exact .lowFatal hp herr hpend
    · exact .lowLast hp herr hpend hr
    · exact .lowNext hp herr hpend hr
  | finish => exact .publish hp
  | initFailed => exact .failed hp

/-- A step with `rst = 0` takes one of the branches. -/
theorem phaseEdge_of_step {s t : State} (h : step s = .next t) (hrst : s.now.rst = false) : PhaseEdge s t := by
  obtain ⟨hrst', -⟩ | ⟨-, -, -, -, rfl⟩ := step_cases h
  · simp [hrst] at hrst'
  · exact phaseEdge_phaseRule s

theorem State.drvLvl_eq (s : State) : s.drvLvl = decide (s.phase = .row) := rfl

/-- An edge at which `drv_req` is 1 is a row drive to the level `drv_lvl`, and no other edge touches a row line
(10_state.md R26, R27). -/
theorem PhaseEdge.drives {s t : State} (e : PhaseEdge s t) :
    (s.drvReq = true ∧ t.rowQ = (driveRow s.drvLvl s.now s).rowQ ∧
      t.padUnknown = (driveRow s.drvLvl s.now s).padUnknown) ∨
    (s.drvReq = false ∧ t.rowQ = s.rowQ ∧ t.padUnknown = s.padUnknown) := by
  cases e with
  | initFail hp hrow herr | initLow hp hrow herr | rowFail hp hrow herr | rowHigh hp hrow herr =>
    exact .inl (by simp [State.drvReq, State.drvLvl_eq, hp, hrow, herr])
  | lowFail hp herr | lowFatal hp herr | lowLast hp herr | lowNext hp herr =>
    exact .inl (by simp [State.drvReq, State.drvLvl_eq, hp, herr])
  | initSkip hp hrow | rowSkipLast hp hrow | rowSkip hp hrow =>
    exact .inr (by simp [State.drvReq, hp, hrow])
  | read hp | wait hp | settleEnd hp | settleCount hp | sampleFatal hp | samplePressed hp | sampleReleased hp
  | publish hp | failed hp => exact .inr (by simp [State.drvReq, hp])

end Sys2Proof.Machine
end

section
/-! The registers across one edge (10_state.md R24 to R33): who writes each of them, and what. -/

namespace Sys2Proof.Machine

/-- Settles O24: `done` rises at FINISH and in the three aborting branches only; each of those three is `raiseHwIoFail`
with the code of its cause. -/
theorem abortRecordsItsCause : Obligations.AbortRecordsItsCause := by
  intro s t h hrst hdone hfin
  cases phaseEdge_of_step h hrst with
  | rowFail hp hrow herr => simp [hp, hrow, herr, codeRowHighFail]
  | lowFail hp herr => simp [hp, herr, codeRowLowFail]
  | lowFatal hp herr hpend => simp [hp, herr, hpend, codeColFatal]
  | publish hp => exact absurd hp hfin
  | _ => simp at hdone

/-- Settles O25: the branches that write an error register are READ, the aborts, the INIT failure and the fatal column. -/
theorem errorStatusWriters : Obligations.ErrorStatusWriters := by
  intro s t h hrst
  cases phaseEdge_of_step h hrst with
  | initFail hp => simp [hp, codeInitLowFail]
  | read hp hcmd => simp [hp, hcmd]
  | rowFail hp | lowFail hp | lowFatal hp => simp [hp]
  | sampleFatal hp hfatal => simp [hp, hfatal]
  | _ => simp

/-- Settles O31: FINISH alone writes the mask; READ clears `valid_q`, and every other branch keeps it. -/
theorem maskWrittenOnlyByFinishOrReset : Obligations.MaskWrittenOnlyByFinishOrReset := by
  intro s t h hrst
  cases phaseEdge_of_step h hrst with
  | publish hp => simp [hp]
  | _ => simp [‹s.phase = _›]

/-- Settles O32: READ clears the accumulator, a pressed column ORs its key in, and every other branch keeps it. -/
theorem accumulatorLaw : Obligations.AccumulatorLaw := by
  intro s t h hrst
  cases phaseEdge_of_step h hrst with
  | read hp hcmd => simp [hp, hcmd]
  | wait hp hcmd => simp [hp, hcmd]
  | sampleFatal hp hfatal => simp [hp, hfatal]
  | samplePressed hp hfatal hkey | sampleReleased hp hfatal hkey => simp [hp, hfatal, hkey]
  | _ => simp [‹s.phase = _›]

/-- Settles O33: a drive writes the bit of its row where it succeeds, and no other edge writes `row_q`. -/
theorem rowRegisterFollowsDrives : Obligations.RowRegisterFollowsDrives := by
  intro s t k h hrst
  obtain ⟨hreq, hrow, -⟩ | ⟨hreq, hrow, -⟩ := (phaseEdge_of_step h hrst).drives
  · rw [hrow, lineBit_driveRow_rowQ]
    simp [hreq, State.drvRow, eq_comm (a := k)]
  · simp [hreq, hrow]

/-- Settles O34: ROW loads the counter at a successful drive, SETTLE counts it down, and READ writes the latch. -/
theorem counterLaw : Obligations.CounterLaw := by
  intro s t h hrst
  cases phaseEdge_of_step h hrst with
  | read hp hcmd => simp [hp, hcmd, Inputs.settle]
  | wait hp hcmd => simp [hp, hcmd]
  | rowSkipLast hp hrow | rowSkip hp hrow => simp [hp, hrow]
  | rowFail hp hrow herr | rowHigh hp hrow herr => simp [hp, hrow, herr]
  | settleEnd hp hcnt | settleCount hp hcnt => simp [hp, hcnt]
  | _ => simp [‹s.phase = _›]

/-- Settles O35: `done_q` by the branches; `pend_fatal` is set by the fatal column, cleared by the aborts, and by the
invariant 0 wherever another branch keeps it. -/
theorem pulseAndPendingLaw : Obligations.PulseAndPendingLaw := by
  intro s t hinv h hrst
  obtain ⟨-, -, -, ⟨-, -, -, -, hpending⟩, -⟩ := hinv
  cases phaseEdge_of_step h hrst with
  | sampleFatal hp hfatal => simp [hp, hfatal]
  | samplePressed hp hfatal | sampleReleased hp hfatal =>
    have hpend : s.pendFatal = false := by simpa [hp] using hpending
    simp [hp, hfatal, hpend]
  | lowLast hp _ hpend | lowNext hp _ hpend => simp [hp, hpend]
  | read hp | rowFail hp | lowFail hp | lowFatal hp => simp [hp]
  | _ =>
    have hp := ‹s.phase = _›
    have hpend : s.pendFatal = false := by simpa [hp] using hpending
    simp [hp, hpend]

/-- Settles O37: the first clause is the definition of the pad level; a drive decides the flag of its row, and reset and
every other edge keep it. -/
theorem padLevelIsKnownUnlessADriveFailed : Obligations.PadLevelIsKnownUnlessADriveFailed := by
  refine ⟨fun s k hknown => by simp [State.padLevel, hknown], fun s t k h => ?_⟩
  cases hrst : s.now.rst with
  | true =>
    obtain ⟨-, rfl⟩ | ⟨hrst', -⟩ := step_cases h
    · simp
    · simp [hrst] at hrst'
  | false =>
    obtain ⟨hreq, -, hpad⟩ | ⟨hreq, -, hpad⟩ := (phaseEdge_of_step h hrst).drives
    · rw [hpad, lineBit_driveRow_padUnknown]
      simp [hreq, State.drvRow, eq_comm (a := k)]
    · simp [hreq, hpad]

end Sys2Proof.Machine
end

section
/-! The stops of 93_implementation_defined.md U8, U3 and U4, and the state after reset (10_state.md R19, R39). -/

namespace Sys2Proof.Machine

/-- With `rst = 0` a step is one edge under the phase rule. -/
theorem step_of_no_reset {s : State} (hrst : s.now.rst = false) : step s = edge phaseRule s := by
  simp [step_eq, hrst]

/-- With `rst = 1` a step is RESET. -/
theorem step_of_reset {s : State} (hrst : s.now.rst = true) : step s = .next (resetRule s.now s) := by
  simp [step_eq, hrst]

/-- U8: no edge with `rst = 0` before the first reset. -/
theorem edge_of_not_launched (rule : Inputs → State → State) {s : State} (hl : s.launched = false) :
    edge rule s = .refused .runNotBegunInReset := if_pos hl

/-- U3: a changed static parameter stops the edge. -/
theorem edge_of_changed_cfg (rule : Inputs → State → State) {s : State} (hl : s.launched = true)
    (hcfg : s.now.cfg ≠ s.cfg) : edge rule s = .refused .staticParameterChanged := by
  simp [edge, hl, hcfg]

/-- U4: a LAYOUT that is no permutation stops the edge. -/
theorem edge_of_bad_layout (rule : Inputs → State → State) {s : State} (hl : s.launched = true)
    (hcfg : s.now.cfg = s.cfg) (hlayout : layoutWellFormed s.cfg.layout = false) :
    edge rule s = .refused .layoutNotPermutation := by
  simp [edge, hl, hcfg, hlayout]

/-- Settles O7: the first test of `edge`, and RESET, which has no test. -/
theorem runNotBegunInResetIsRefused : Obligations.RunNotBegunInResetIsRefused := by
  intro s hl
  refine ⟨fun hrst => ?_, fun hrst => ⟨_, step_of_reset hrst, resetRule_launched .., resetRule_phase ..⟩⟩
  rw [step_of_no_reset hrst, edge_of_not_launched _ hl]

/-- Settles O8: the second and the third test of `edge`. -/
theorem badParametersAreRefused : Obligations.BadParametersAreRefused := by
  intro s hl hrst
  rw [step_of_no_reset hrst]
  exact ⟨edge_of_changed_cfg _ hl, edge_of_bad_layout _ hl⟩

/-- After reset every register is 0 and the word is INIT at row 0, so each clause of the invariant is about that word or
has a false premise; a counter of 0 fits every SW. -/
theorem afterReset_inv (sw : Nat) (cfg : Cfg) : (State.afterReset sw cfg).Inv := by
  refine ⟨rfl, Nat.zero_le 4, ⟨Nat.two_pow_pos sw, Nat.two_pow_pos sw⟩, ?status, ?scan⟩
  case status => simp [State.StatusFitsPhase, codeInitLowFail]
  case scan => simp [State.RowInScan, Phase.rowHigh]

/-- After reset no row is scanned and none is high. -/
theorem afterReset_onlyScannedRowHigh (sw : Nat) (cfg : Cfg) : (State.afterReset sw cfg).OnlyScannedRowHigh := rfl

/-- Settles O27: `State.reset` is `State.afterReset` of the default block. -/
theorem invariantHoldsAfterReset : Obligations.InvariantHoldsAfterReset :=
  ⟨afterReset_inv _ _, fun sw cfg => ⟨afterReset_inv sw cfg, afterReset_onlyScannedRowHigh sw cfg⟩⟩

end Sys2Proof.Machine
end

section
/-! The inputs a phase rule reads (41_scan_fsm.md R79 to R86, 10_state.md R14). -/

namespace Sys2Proof.Machine

/-- The edge's inputs as far as the phase rule of `s` reads them, in every phase but SAMPLE: `drv_err` where a row is
driven, the host's fields in IDLE, and nothing else. -/
def State.ReadsAgree (s : State) (i j : Inputs) : Prop :=
  match s.phase with
  | .init | .row => hasRow s.cfg s.r = true → i.drvErr = j.drvErr
  | .deassert => i.drvErr = j.drvErr
  | .idle => i.cmd = j.cmd ∧ i.settleLen = j.settleLen
  | .sample => False
  | .settle | .finish | .initFailed => True

/-- A row drive reads `drv_err` only. -/
theorem driveRow_reads (level : Bool) {i j : Inputs} (s : State) (h : i.drvErr = j.drvErr) :
    driveRow level i s = driveRow level j s := by
  simp only [driveRow, h]

/-- INIT reads `drv_err`, and that only at a present row (R79). -/
theorem initRule_reads {i j : Inputs} {s : State} (h : hasRow s.cfg s.r = true → i.drvErr = j.drvErr) :
    initRule i s = initRule j s := by
  unfold initRule
  split
  · next hrow => rw [h hrow, driveRow_reads false s (h hrow)]
  · rfl

/-- IDLE reads the host's fields (R80, 40_commands.md R75). -/
theorem idleRule_reads {i j : Inputs} (s : State) (hcmd : i.cmd = j.cmd) (hlen : i.settleLen = j.settleLen) :
    idleRule i s = idleRule j s := by
  simp only [idleRule, readRule, rsv2Rule, rsv3Rule, nopRule, Inputs.settle, hcmd, hlen]

/-- ROW reads `drv_err`, and that only at a present row (R81). -/
theorem rowRule_reads {i j : Inputs} {s : State} (h : hasRow s.cfg s.r = true → i.drvErr = j.drvErr) :
    rowRule i s = rowRule j s := by
  unfold rowRule
  split
  · rfl
  · next hrow =>
    have herr := h (by simpa using hrow)
    rw [herr, driveRow_reads true s herr]

/-- DEASSERT reads `drv_err` (R84). -/
theorem deassertRule_reads {i j : Inputs} (s : State) (h : i.drvErr = j.drvErr) :
    deassertRule i s = deassertRule j s := by
  simp only [deassertRule, h, driveRow_reads false s h]

/-- Inputs that agree where the phase rule reads them give one result. -/
theorem phaseRule_reads {i j : Inputs} {s : State} (h : s.ReadsAgree i j) : phaseRule i s = phaseRule j s := by
  unfold State.ReadsAgree at h
  unfold phaseRule
  cases hp : s.phase <;> rw [hp] at h
  case init => exact initRule_reads h
  case idle =>
    obtain ⟨hcmd, hlen⟩ := h
    exact idleRule_reads s hcmd hlen
  case row => exact rowRule_reads h
  case settle => rfl
  case sample => exact h.elim
  case deassert => exact deassertRule_reads s h
  case finish => rfl
  case initFailed => rfl

/-- Two edges with `rst = 0` from one state, under the same parameters, agree where the phase rule answers the same. -/
theorem step_agree_of_phaseRule {s : State} {i j : Inputs} {rest : List Inputs} (hi : i.rst = false) (hj : j.rst = false)
    (hcfg : i.cfg = j.cfg)
    (h : phaseRule i { s with pins := i :: rest }.beginEdge = phaseRule j { s with pins := i :: rest }.beginEdge) :
    step { s with pins := i :: rest } = step { s with pins := j :: rest } := by
  rw [step_of_no_reset (s := { s with pins := i :: rest }) hi, step_of_no_reset (s := { s with pins := j :: rest }) hj]
  exact edge_agree rfl hcfg rfl rfl rfl rfl rfl h

/-- Settles O43: in each of the phases named, the inputs agree where the phase rule reads them. -/
theorem phasesReadOnlyTheirInputs : Obligations.PhasesReadOnlyTheirInputs := by
  intro s i j rest hi hj hcfg h
  refine step_agree_of_phaseRule hi hj hcfg (phaseRule_reads ?_)
  obtain hp | hp | hp | ⟨hp | hp, hrow | herr⟩ | ⟨hp, herr⟩ | ⟨hp, hcmd, hlen⟩ := h
  iterate 3 · simp [State.ReadsAgree, hp]
  iterate 2
    · simp [State.ReadsAgree, hp, hrow]
    · simp [State.ReadsAgree, hp, herr]
  · simp [State.ReadsAgree, hp, herr]
  · simp [State.ReadsAgree, hp, hcmd, hlen]

end Sys2Proof.Machine
end

section
/-! Runs of several edges with listed inputs, and construction (70_reset_and_hazards.md R124, 41_scan_fsm.md R79). -/

namespace Sys2Proof.Machine

/-- A run is prolonged by one edge at its end. -/
theorem run_succ_of_last {t u : State} : ∀ {k : Nat} {s : State}, run k s = .next u → step u = .next t →
    run (k + 1) s = .next t
  | 0, s, hk, ht => by
    obtain rfl : s = u := by simpa using hk
    simp [run_succ, ht]
  | k + 1, s, hk, ht => by
    rw [run_succ] at hk
    cases hs : step s with
    | next v =>
      rw [hs] at hk
      rw [run_succ_of_next hs]
      exact run_succ_of_last hk ht
    | fault f => simp [hs] at hk
    | refused q => simp [hs] at hk

theorem mem_idxs (r : Idx) : r ∈ idxs := by revert r; decide

/-- The inputs of the next edge are the ones listed for it at the start of the run. -/
theorem now_of_pins_drop {s u : State} {k : Nat} (hpins : u.pins = s.pins.drop k) (hk : k < s.pins.length) :
    u.now = s.inputAt k := by
  have hdrop : u.pins = s.pins[k] :: s.pins.drop (k + 1) := hpins.trans (List.drop_eq_getElem_cons hk)
  have hlisted : s.inputAt k = s.pins[k] := by simp [State.inputAt, hk]
  simp only [State.now, hdrop, hlisted]

/-- Each listed edge of a steady host is out of reset and presents the held parameters. -/
theorem State.Steady.inputAt_held {s : State} {n k : Nat} (h : s.Steady n) (hk : k < n) :
    (s.inputAt k).rst = false ∧ (s.inputAt k).cfg = s.cfg := by
  obtain ⟨hlen, hall⟩ := h
  have hk' : k < s.pins.length := by omega
  have hmem : s.inputAt k ∈ s.pins.take n := by
    simp only [State.inputAt, List.getD_eq_getElem?_getD, List.getElem?_eq_getElem hk', Option.getD_some]
    exact List.mem_take_iff_getElem.mpr ⟨k, by omega, rfl⟩
  exact hall _ hmem

/-- `u` stands `k` edges of construction after `s`: rows below `k` that are present are low, the error status and every
other row are as they were, and the word is INIT at row `k`, or IDLE after row 3. -/
structure Constructing (s : State) (k : Nat) (u : State) : Prop where
  ran : run k s = .next u
  word : (k < 4 ∧ u.phase = .init ∧ u.r.toNat = k) ∨ (k = 4 ∧ u.phase = .idle ∧ u.r = 0#2)
  col : u.c = 0#2
  launched : u.launched = true
  cfg : u.cfg = s.cfg
  pins : u.pins = s.pins.drop k
  errCode : u.errCodeQ = s.errCodeQ
  errRow : u.errRowQ = s.errRowQ
  errCol : u.errColQ = s.errColQ
  rows : ∀ j : Idx, lineBit u.rowQ j = (lineBit s.rowQ j && !(hasRow s.cfg j && decide (j.toNat < k)))

/-- Construction starts with nothing done. -/
theorem constructing_zero {s : State} (h : s.At .init 0#2) : Constructing s 0 s := by
  obtain ⟨hp, hr, hc, -, hl, -⟩ := h
  exact ⟨rfl, .inl ⟨by decide, hp, by simp [hr]⟩, hc, hl, rfl, rfl, rfl, rfl, rfl, by simp⟩

/-- INIT without a failed drive: a present row goes low, and the FSM advances (R79). -/
theorem initRule_of_no_failure {i : Inputs} {s : State} (hok : hasRow s.cfg s.r = true → i.drvErr = false) :
    initRule i s = initAdvance
      { s with
        rowQ := if hasRow s.cfg s.r then setLine s.rowQ s.r false else s.rowQ
        padUnknown := if hasRow s.cfg s.r then setLine s.padUnknown s.r false else s.padUnknown } := by
  obtain ⟨hrow, h⟩ | ⟨hrow, herr, -⟩ | ⟨hrow, -, h⟩ := initRule_cases i s
  · simp [h, hrow]
  · simp [hok hrow] at herr
  · simp [h, hrow]

/-- The row levels after that edge: row `r` is low if it is present. -/
theorem lineBit_lowered (cfg : Cfg) (v : Lines) (r j : Idx) :
    lineBit (if hasRow cfg r then setLine v r false else v) j = (lineBit v j && !(hasRow cfg j && decide (j = r))) := by
  by_cases hj : j = r
  · subst hj
    cases hasRow cfg j <;> simp [lineBit_setLine]
  · cases hasRow cfg r <;> simp [lineBit_setLine, hj]

/-- One more edge of construction, at a row that does not fail. -/
theorem Constructing.succ {s u : State} {k n : Nat} (h : Constructing s k u) (hk : k < 4) (hat : s.At .init 0#2)
    (hst : s.Steady n) (hkn : k < n)
    (hok : ∀ r ∈ idxs, r.toNat = k → hasRow s.cfg r = true → (s.inputAt k).drvErr = false) :
    ∃ t, Constructing s (k + 1) t := by
  obtain ⟨-, -, -, hcode, -, hlayout⟩ := hat
  obtain ⟨-, hphase, hr⟩ | ⟨rfl, -⟩ := h.word
  case inr => omega
  obtain ⟨hrst, hcfg⟩ := hst.inputAt_held hkn
  have hnow : u.now = s.inputAt k := now_of_pins_drop h.pins (by have := hst.1; omega)
  have hdrive : hasRow u.cfg u.r = true → u.now.drvErr = false := by
    rw [h.cfg, hnow]
    exact hok u.r (mem_idxs u.r) hr
  have hduties : u.HostDuties := ⟨h.launched, by rw [hnow, hcfg, h.cfg], by rw [h.cfg]; exact hlayout⟩
  have hword : u.WordReachable := by simp [State.WordReachable, hphase, reachableWord, h.col]
  have hassigned : u.CodeAssigned := by rw [State.CodeAssigned, h.errCode]; exact hcode
  have hstep : step u = .next (initRule u.now u.beginEdge) := by
    rw [step_of_no_reset (by rw [hnow, hrst]), edge_of_duties _ hduties hword hassigned]
    simp [phaseRule, hphase]
  rw [initRule_of_no_failure (s := u.beginEdge) hdrive] at hstep
  refine ⟨_, run_succ_of_last h.ran hstep, ?word, ?col, ?launched, ?cfg, ?pins, ?errCode, ?errRow, ?errCol, ?rows⟩
  case word =>
    by_cases hlast : u.r = 3#2
    · have hk3 : k = 3 := by simpa [hlast] using hr.symm
      exact .inr ⟨by omega, by simp [hlast], by simp [hlast]⟩
    · have hnext : u.r.toNat < 3 ∧ (u.r + 1#2).toNat = k + 1 := by bv_omega
      exact .inl ⟨by omega, by simp [hlast, hphase], by simpa [hlast] using hnext.2⟩
  case rows =>
    intro j
    have hdone : decide (j.toNat < k + 1) = (decide (j.toNat < k) || decide (j = u.r)) := by
      simp [← BitVec.toNat_inj, hr, Nat.le_iff_lt_or_eq]
    simp only [initAdvance_rowQ, State.beginEdge_rowQ, State.beginEdge_cfg, State.beginEdge_r, lineBit_lowered, h.rows j,
      h.cfg, hdone]
    rw [Bool.and_or_distrib_left, Bool.not_or, Bool.and_assoc]
  all_goals simp [h.col, h.launched, h.cfg, h.pins, h.errCode, h.errRow, h.errCol]

/-- Construction goes on as long as no present row fails. -/
theorem exists_constructing {s : State} {n : Nat} (hat : s.At .init 0#2) (hst : s.Steady n)
    (hok : ∀ r ∈ idxs, r.toNat < n → hasRow s.cfg r = true → (s.inputAt r.toNat).drvErr = false) :
    ∀ k : Nat, k ≤ n → k ≤ 4 → ∃ u, Constructing s k u
  | 0, _, _ => ⟨s, constructing_zero hat⟩
  | k + 1, hkn, hk4 => by
    obtain ⟨u, hu⟩ := exists_constructing hat hst hok k (by omega) (by omega)
    refine hu.succ (by omega) hat hst (by omega) ?_
    rintro r hr rfl
    exact hok r hr (by omega)

/-- Settles O46: construction stands in INIT at row `k` after `k < 4` edges, and in IDLE after four. -/
theorem constructionTakesFourEdges : Obligations.ConstructionTakesFourEdges := by
  intro s hat hst hok
  have hall := exists_constructing hat hst fun r hr _ => hok r hr
  constructor
  · intro k hk
    obtain ⟨u, hu⟩ := hall k (by omega) (by omega)
    obtain ⟨-, hphase, hr⟩ | ⟨rfl, -⟩ := hu.word
    · exact ⟨u, hu.ran, hphase, hr, by simp [State.busy, hphase]⟩
    · omega
  · obtain ⟨t, ht⟩ := hall 4 le_rfl le_rfl
    obtain ⟨hlt, -⟩ | ⟨-, hphase, hr⟩ := ht.word
    · omega
    · refine ⟨t, ht.ran, hphase, hr, ht.errCode, ht.errRow, ht.errCol, by simp [State.busy, hphase], fun k => ?_⟩
      simp [ht.rows k, k.isLt]

end Sys2Proof.Machine
end

section
/-! LAYOUT and the mask bits (20_memory.md R43 to R46, 30_encoding.md R69). -/

namespace Sys2Proof.Machine

/-- Cell `k` of the default LAYOUT holds `k` (20_memory.md R46). -/
theorem layoutRead_defaultLayout (r c : Idx) :
    (layoutRead Config.defaultLayout r c).toNat = 4 * r.toNat + c.toNat := by
  revert r c
  decide

/-- Settles O38: the field by the arithmetic of `extractLsb'`, and the sixteen cells of the default LAYOUT one by one. -/
theorem layoutReadIsTheField : Obligations.LayoutReadIsTheField :=
  ⟨layoutRead_toNat, layoutRead_defaultLayout⟩

/-- The cell number `4*r + c` determines the key (20_memory.md R41). -/
theorem key_eq_of_cell_eq {r c r' c' : Idx} (h : 4 * r.toNat + c.toNat = 4 * r'.toNat + c'.toNat) :
    (r, c) = (r', c') := by
  have hc := c.isLt
  have hc' := c'.isLt
  have hr : r = r' := BitVec.eq_of_toNat_eq (by omega)
  have hc : c = c' := BitVec.eq_of_toNat_eq (by omega)
  rw [hr, hc]

/-- A well-formed LAYOUT gives distinct keys distinct mask bits (20_memory.md R44). -/
theorem layoutRead_ne {layout : Layout} (hwf : layoutWellFormed layout = true) {r c r' c' : Idx}
    (hne : (r, c) ≠ (r', c')) : layoutRead layout r c ≠ layoutRead layout r' c' := by
  intro heq
  have hnodup : (layoutCells layout).Nodup := of_decide_eq_true hwf
  have hcell := layoutCells_getElem? layout r c
  obtain ⟨hlt, -⟩ := List.getElem?_eq_some_iff.mp hcell
  have hsame : (layoutCells layout)[4 * r.toNat + c.toNat]? = (layoutCells layout)[4 * r'.toNat + c'.toNat]? := by
    rw [hcell, layoutCells_getElem?, heq]
  exact hne (key_eq_of_cell_eq ((List.getElem?_inj hlt hnodup).mp hsame))

/-- Masks of two different bits have no bit in common. -/
theorem oneHot_and_oneHot {a b : BitVec 4} (h : a ≠ b) : oneHot a &&& oneHot b = 0x0000#16 := by
  revert a b
  decide

/-- Settles O39: the keys' cells differ, so the bits they name do. -/
theorem distinctKeysOwnDistinctBits : Obligations.DistinctKeysOwnDistinctBits :=
  fun _ _ _ _ _ hwf hne => oneHot_and_oneHot (layoutRead_ne hwf hne)

end Sys2Proof.Machine
end

section
/-! The row levels across one edge and along runs (20_memory.md R54, 41_scan_fsm.md R101). -/

namespace Sys2Proof.Machine

/-- Settles O28: a drive-high raises the one row that SETTLE is then about, a drive-low takes that row back, and every
other edge stays on the same side of the scan of a row. -/
theorem onlyTheScannedRowIsHigh : Obligations.OnlyTheScannedRowIsHigh := by
  intro s t hs hok h
  cases hrst : s.now.rst with
  | true =>
    obtain ⟨-, rfl⟩ | ⟨hrst', -⟩ := step_cases h
    · simp [State.OnlyScannedRowHigh]
    · simp [hrst] at hrst'
  | false =>
    unfold State.OnlyScannedRowHigh at hs ⊢
    cases phaseEdge_of_step h hrst with
    | rowHigh hp => simp [hs, hp, setLine_zero_true]
    | lowFail hp herr => simp [State.deassertFails, hrst, hp, herr] at hok
    | lowFatal hp | lowLast hp | lowNext hp => simp [hs, hp, setLine_oneLine_false]
    | initSkip hp | initLow hp => by_cases hr : s.r = 3#2 <;> simp [hs, hp, hr]
    | samplePressed hp | sampleReleased hp => by_cases hc : s.c = 3#2 <;> simp [hs, hp, hc]
    | _ => simp [hs, ‹s.phase = _›]

/-- A run of `k + 1` edges is one edge and a run of `k`. -/
theorem run_succ_eq_next {k : Nat} {s t : State} (h : run (k + 1) s = .next t) :
    ∃ u, step s = .next u ∧ run k u = .next t := by
  rw [run_succ] at h
  cases hs : step s with
  | next u => exact ⟨u, rfl, by rw [hs] at h; exact h⟩
  | fault f => simp [hs] at h
  | refused q => simp [hs] at h

/-- No failed deassert along a run: the one-row property holds at its end. -/
theorem run_keeps_onlyScannedRowHigh : ∀ (k : Nat) {s t : State}, s.OnlyScannedRowHigh →
    (∀ j < k, ∀ u, run j s = .next u → u.deassertFails = false) → run k s = .next t → t.OnlyScannedRowHigh
  | 0, s, t, hs, _, h => by
    obtain rfl : s = t := by simpa using h
    exact hs
  | k + 1, s, t, hs, hok, h => by
    obtain ⟨u, hstep, hrun⟩ := run_succ_eq_next h
    have hu := onlyTheScannedRowIsHigh s u hs (hok 0 k.succ_pos s rfl) hstep
    refine run_keeps_onlyScannedRowHigh k hu (fun j hj v hv => ?_) hrun
    exact hok (j + 1) (Nat.succ_lt_succ hj) v (by rw [run_succ_of_next hstep, hv])

/-- One line of four has one line high. -/
theorem count_oneLine (k : Idx) : (idxs.filter fun j => lineBit (1#4 <<< k.toNat) j).length = 1 := by
  revert k
  decide

theorem rowsHigh_le_one {s : State} (h : s.OnlyScannedRowHigh) : s.rowsHigh ≤ 1 := by
  unfold State.rowsHigh
  rw [h]
  split
  · exact (count_oneLine s.r).le
  · simp

/-- Settles O29: the one-row property of O28 along the run. -/
theorem atMostOneRowHighAlongRuns : Obligations.AtMostOneRowHighAlongRuns := by
  intro k s t hs hok h
  have ht := run_keeps_onlyScannedRowHigh k hs hok h
  refine ⟨rowsHigh_le_one ht, fun hphase => ?_⟩
  rw [ht]
  obtain hp | hp | hp | hp := hphase <;> simp [hp]

/-- Settles O57: a scan ends at one of the three aborts or at FINISH; only the failed drive-low leaves a row high. -/
theorem rowLevelsAtTheEndOfAScan : Obligations.RowLevelsAtTheEndOfAScan := by
  intro s t hs h hbusy hinit hidle
  have hrst : s.now.rst = false := by
    obtain ⟨-, rfl⟩ | ⟨hrst, -⟩ := step_cases h
    · simp at hidle
    · exact hrst
  refine ⟨hrst, ?_⟩
  unfold State.OnlyScannedRowHigh at hs
  cases phaseEdge_of_step h hrst with
  | rowFail hp => simp [hs, hp]
  | lowFail hp => simp [hs, hp, codeRowLowFail]
  | lowFatal hp => simp [hs, hp, codeColFatal, setLine_oneLine_false]
  | publish hp => simp [hs, hp]
  | initSkip hp | initLow hp => exact absurd hp hinit
  | read hp | wait hp => simp [State.busy, hp] at hbusy
  | samplePressed hp | sampleReleased hp => by_cases hc : s.c = 3#2 <;> simp [hp, hc] at hidle
  | rowSkip hp | settleCount hp | failed hp => simp [hp] at hidle
  | _ => simp at hidle

end Sys2Proof.Machine
end

section
/-! A scan in progress, edge by edge from the one that accepts READ (41_scan_fsm.md R80 to R84, R99, R100): what it has
accumulated, which pin events it has made, and what it leaves alone. -/

namespace Sys2Proof.Machine

/-- One more edge adds its event to the trace. -/
theorem trace_succ_of_last {t u : State} : ∀ {k : Nat} {s : State}, run k s = .next u → step u = .next t →
    trace (k + 1) s = trace k s ++ u.event.toList
  | 0, s, hk, ht => by
    obtain rfl : s = u := by simpa using hk
    simp [trace, ht]
  | k + 1, s, hk, ht => by
    obtain ⟨v, hs, hv⟩ := run_succ_eq_next hk
    rw [trace, trace, hs]
    simp [trace_succ_of_last hv ht]

/-- The rows or columns below `n`. -/
def below (n : Nat) : List Idx := idxs.filter fun j => decide (j.toNat < n)

theorem below_succ (r : Idx) : below (r.toNat + 1) = below r.toNat ++ [r] := by revert r; decide

/-- What `sample(r, c)` ORs into the accumulator of the scan that READ starts at the next edge (41_scan_fsm.md R83, R91). -/
def State.keyRead (s : State) (len : Nat) (r c : Idx) : Mask :=
  if hasRow s.cfg r && pressedColumn s.cfg (s.inputAt (sampleEdge s.cfg len r c)) c then keyMask s.cfg.layout r c
  else 0#16

/-- The pin events of one present row without a failure (20_memory.md R51 to R53). -/
def rowEvents (cfg : Cfg) (r : Idx) : List PinEvent :=
  [.drive r true] ++ ((idxs.filter fun c => hasCol cfg c).map fun c => PinEvent.sample r c) ++ [.drive r false]

/-- Where a scan stands: the edges since READ's, that one counted, the state word, the masks ORed together so far, and
the pin events so far. -/
structure Progress where
  edges : Nat
  phase : Phase
  row : Idx
  col : Idx
  masks : List Mask
  events : List PinEvent

/-- The scan that READ with settle count `len` starts in `s` has come to `u` without a failure and stands at `P`. -/
structure Scanning (s : State) (len : Nat) (P : Progress) (u : State) : Prop where
  ran : run P.edges s = .next u
  events : trace P.edges s = P.events
  acc : u.acc = P.masks.foldl (· ||| ·) 0x0000#16
  phase : u.phase = P.phase
  row : u.r = P.row
  col : u.c = P.col
  launched : u.launched = true
  layout : layoutWellFormed s.cfg.layout = true
  cfg : u.cfg = s.cfg
  pins : u.pins = s.pins.drop P.edges
  latch : u.lenQ = len
  mask : u.maskQ = s.maskQ
  valid : u.validQ = false
  done : u.doneQ = false
  errCode : u.errCodeQ = 0b000#3
  errCol : u.errColQ = 0#2
  pend : u.pendFatal = false
  rows : s.OnlyScannedRowHigh → u.OnlyScannedRowHigh

section
variable {s : State} {len N : Nat}

/-- The accepted READ (R75). -/
theorem scanning_of_read (hat : s.At .idle 0#2) (hlen : len = s.now.settleLen % 2 ^ s.sw) (hcmd : s.now.cmd = 0b01#2)
    (hst : s.Steady N) (hN : 0 < N) : ∃ u, Scanning s len ⟨1, .row, 0#2, 0#2, [], []⟩ u := by
  obtain ⟨hp, hr, hc, hcode, hl, hlayout⟩ := hat
  obtain ⟨hrst, hcfg⟩ := hst.inputAt_held hN
  rw [inputAt_zero (by have := hst.1; omega)] at hrst hcfg
  have hword : s.WordReachable := by simp [State.WordReachable, hp, hr, hc, reachableWord]
  have hstep : step s = .next (readRule s.now s.beginEdge) := by
    rw [step_of_no_reset hrst, edge_of_duties _ ⟨hl, hcfg, hlayout⟩ hword hcode]
    simp [phaseRule, hp, idleRule, hcmd]
  refine ⟨readRule s.now s.beginEdge, ?scan⟩
  constructor
  case ran => rw [run_succ_of_next hstep]; rfl
  case rows => exact fun hs => onlyTheScannedRowIsHigh s _ hs (by simp [State.deassertFails, hp]) hstep
  case events => simp [trace, hstep, State.event, hp]
  case latch => simp [Inputs.settle, hlen]
  case layout => exact hlayout
  all_goals simp [hl]

/-- ROW at an absent row: the next row, or FINISH after row 3 (R81). -/
theorem rowRule_of_absent {i : Inputs} {s : State} (hrow : hasRow s.cfg s.r = false) :
    rowRule i s =
      { s with phase := if s.r = 3#2 then .finish else s.phase, r := if s.r = 3#2 then s.r else s.r + 1#2 } := by
  simp only [rowRule, hrow, if_true]
  split <;> rfl

/-- ROW at a present row without a failed drive (R81). -/
theorem rowRule_of_ok {i : Inputs} {s : State} (hrow : hasRow s.cfg s.r = true) (hok : i.drvErr = false) :
    rowRule i s = { driveRow true i s with cnt := s.lenQ, phase := .settle } := by
  simp [rowRule, hrow, hok]

/-- SAMPLE without an enabled fatal column (R83). -/
theorem sampleRule_of_ok {i : Inputs} {s : State} (hok : fatalColumn s.cfg i s.c = false) :
    sampleRule i s =
      sampleAdvance
        { s with
          acc := s.acc ||| if pressedColumn s.cfg i s.c then keyMask s.cfg.layout s.r s.c else 0#16 } := by
  cases hkey : pressedColumn s.cfg i s.c <;> simp [sampleRule, hok, hkey]

/-- DEASSERT without a failed drive and with nothing to report (R84). -/
theorem deassertRule_of_ok {i : Inputs} {s : State} (hok : i.drvErr = false) (hpend : s.pendFatal = false) :
    deassertRule i s =
      { driveRow false i s with
        phase := if s.r = 3#2 then .finish else .row
        r := if s.r = 3#2 then s.r else s.r + 1#2 } := by
  by_cases hr : s.r = 3#2 <;> simp [deassertRule, hok, hpend, hr]

/-- What a scan leaves alone at an edge that neither ends it nor finds an enabled fatal column. -/
theorem PhaseEdge.scan_frame {u t : State} (e : PhaseEdge u t)
    (hscan : u.phase = .row ∨ u.phase = .settle ∨ u.phase = .sample ∨ u.phase = .deassert)
    (hfatal : u.phase = .sample → fatalColumn u.cfg u.now u.c = false) (hidle : t.phase ≠ .idle) :
    u.deassertFails = false ∧ t.launched = u.launched ∧ t.cfg = u.cfg ∧ t.pins = u.pins.tail ∧ t.lenQ = u.lenQ ∧
    t.maskQ = u.maskQ ∧ t.validQ = u.validQ ∧ t.doneQ = false ∧ t.errCodeQ = u.errCodeQ ∧ t.errColQ = u.errColQ ∧
    t.pendFatal = u.pendFatal := by
  cases e with
  | rowFail | lowFail | lowFatal => simp at hidle
  | sampleFatal hp hyes => simp [hfatal hp] at hyes
  | lowLast _ herr | lowNext _ herr => simp [State.deassertFails, herr]
  | initSkip hp | initFail hp | initLow hp | read hp | wait hp | publish hp | failed hp => simp [hp] at hscan
  | _ => simp [State.deassertFails, ‹u.phase = _›]

/-- After a failed drive the pad level of that row is a free draw (10_state.md R27). -/
theorem padLevel_of_failed_drive {u t : State} (hstep : step u = .next t) (hrst : u.now.rst = false)
    (hreq : u.drvReq = true) (hfails : u.now.drvErr = true) :
    t.padLevel u.r = lineBit (Config.freePad t.cycle) u.r := by
  have hpad := padLevelIsKnownUnlessADriveFailed.2 u t u.r hstep
  rw [if_pos ⟨hrst, hreq, rfl⟩, hfails] at hpad
  simp [State.padLevel, hpad]

namespace Scanning
variable {P : Progress} {u t : State} {n : Nat} {r c : Idx} {ms : List Mask} {es : List PinEvent} {p' : Phase}
  {r' c' : Idx}

/-- The next edge of a scan: its inputs are the listed ones, and it is the phase rule's (R78). -/
theorem step_eq (h : Scanning s len P u) (hst : s.Steady N) (hN : P.edges < N)
    (hword : reachableWord P.phase P.row P.col = true) :
    u.now = s.inputAt P.edges ∧ u.now.rst = false ∧ step u = .next (phaseRule u.now u.beginEdge) := by
  obtain ⟨hrst, hcfg⟩ := hst.inputAt_held hN
  have hnow : u.now = s.inputAt P.edges := now_of_pins_drop h.pins (by have := hst.1; omega)
  rw [← hnow] at hrst hcfg
  have hduties : u.HostDuties := ⟨h.launched, by rw [hcfg, h.cfg], by rw [h.cfg]; exact h.layout⟩
  have hreach : u.WordReachable := by rw [State.WordReachable, h.phase, h.row, h.col, hword]
  refine ⟨hnow, hrst, ?_⟩
  rw [step_of_no_reset hrst, edge_of_duties _ hduties hreach (by simp [State.CodeAssigned, h.errCode])]

/-- An edge that neither ends the scan nor finds an enabled fatal column takes the scan one edge further. -/
theorem succ (h : Scanning s len P u) (hst : s.Steady N) (hN : P.edges < N)
    (hword : reachableWord P.phase P.row P.col = true)
    (hscan : P.phase = .row ∨ P.phase = .settle ∨ P.phase = .sample ∨ P.phase = .deassert)
    (hfatal : P.phase = .sample → fatalColumn s.cfg (s.inputAt P.edges) P.col = false)
    (ht : phaseRule u.now u.beginEdge = t) (hphase : t.phase = p') (hrow : t.r = r') (hc : t.c = c')
    (hidle : p' ≠ .idle) (hacc : t.acc = ms.foldl (· ||| ·) 0x0000#16) (hevents : P.events ++ u.event.toList = es) :
    Scanning s len ⟨P.edges + 1, p', r', c', ms, es⟩ t := by
  obtain ⟨hnow, hrst, hstep⟩ := h.step_eq hst hN hword
  rw [ht] at hstep
  rw [← hnow, ← h.cfg, ← h.col] at hfatal
  rw [← h.phase] at hscan hfatal
  obtain ⟨hlow, hlaunched, hcfg, hpins, hlatch, hmask, hvalid, hdone, hcode, hcol, hpend⟩ :=
    (phaseEdge_of_step hstep hrst).scan_frame hscan hfatal (by rw [hphase]; exact hidle)
  constructor
  case ran => exact run_succ_of_last h.ran hstep
  case events => rw [trace_succ_of_last h.ran hstep, h.events, hevents]
  case acc => exact hacc
  case pins => simp [hpins, h.pins]
  case layout => exact h.layout
  case rows => exact fun hs => onlyTheScannedRowIsHigh u t (h.rows hs) hlow hstep
  case done => exact hdone
  case launched => rw [hlaunched, h.launched]
  case cfg => rw [hcfg, h.cfg]
  case latch => rw [hlatch, h.latch]
  case mask => rw [hmask, h.mask]
  case valid => rw [hvalid, h.valid]
  case errCode => rw [hcode, h.errCode]
  case errCol => rw [hcol, h.errCol]
  case pend => rw [hpend, h.pend]
  case phase => exact hphase
  case row => exact hrow
  case col => exact hc

/-- ROW passes an absent row, which contributes nothing to the mask (R81, R91). -/
theorem row_skip (h : Scanning s len ⟨n, .row, r, 0#2, ms, es⟩ u) (hst : s.Steady N) (hN : n < N)
    (hrow : hasRow s.cfg r = false) :
    ∃ t, Scanning s len
      ⟨n + 1, if r = 3#2 then .finish else .row, if r = 3#2 then r else r + 1#2, 0#2,
        ms ++ idxs.map (s.keyRead len r), es⟩ t := by
  have hrow' : hasRow u.cfg u.r = false := by rw [h.cfg, h.row]; exact hrow
  have hrule : phaseRule u.now u.beginEdge = rowRule u.now u.beginEdge := by simp [phaseRule, h.phase]
  rw [rowRule_of_absent (s := u.beginEdge) hrow'] at hrule
  refine ⟨_, h.succ hst hN rfl (.inl rfl) nofun hrule ?phase ?row h.col ?idle ?acc ?events⟩
  case phase => simp [h.row, h.phase]
  case row => simp [h.row]
  case idle => split <;> simp
  case acc => simp [h.acc, idxs, State.keyRead, hrow]
  case events => simp [State.event, h.phase, hrow']

/-- ROW asserts a present row (R81). -/
theorem row_high (h : Scanning s len ⟨n, .row, r, 0#2, ms, es⟩ u) (hst : s.Steady N) (hN : n < N)
    (hrow : hasRow s.cfg r = true) (hok : (s.inputAt n).drvErr = false) :
    ∃ t, Scanning s len ⟨n + 1, .settle, r, 0#2, ms, es ++ [.drive r true]⟩ t ∧ t.cnt = len := by
  obtain ⟨hnow, hrst, -⟩ := h.step_eq hst hN rfl
  have hrow' : hasRow u.cfg u.r = true := by rw [h.cfg, h.row]; exact hrow
  have hrule : phaseRule u.now u.beginEdge = rowRule u.now u.beginEdge := by simp [phaseRule, h.phase]
  rw [rowRule_of_ok (s := u.beginEdge) hrow' (by rw [hnow, hok])] at hrule
  refine ⟨_, h.succ hst hN rfl (.inl rfl) nofun hrule rfl ?row ?col nofun ?acc ?events, h.latch⟩
  case row => simp [h.row]
  case col => simp [h.col]
  case acc => simp [h.acc]
  case events => simp [State.event, hrst, h.phase, h.row, h.cfg, hrow]

/-- SETTLE lasts one edge more than the count it starts with (R82). -/
theorem settle_ends (hst : s.Steady N) : ∀ {k n : Nat} {u : State},
    Scanning s len ⟨n, .settle, r, 0#2, ms, es⟩ u → u.cnt = k → n + k < N →
    ∃ t, Scanning s len ⟨n + k + 1, .sample, r, 0#2, ms, es⟩ t
  | 0, n, u, h, hk, hN => by
    have hrule : phaseRule u.now u.beginEdge = { u.beginEdge with phase := .sample } := by
      simp [phaseRule, h.phase, settleRule, hk]
    exact ⟨_, h.succ hst hN rfl (.inr (.inl rfl)) nofun hrule rfl h.row h.col nofun h.acc
      (by simp [State.event, h.phase])⟩
  | k + 1, n, u, h, hk, hN => by
    have hrule : phaseRule u.now u.beginEdge = { u.beginEdge with cnt := k } := by
      simp [phaseRule, h.phase, settleRule, hk]
    have hcounted := h.succ hst (by simp only; omega) rfl (.inr (.inl rfl)) nofun hrule h.phase h.row h.col nofun h.acc
      (es := es) (by simp [State.event, h.phase])
    obtain ⟨t, ht⟩ := settle_ends hst (k := k) hcounted rfl (by simp only; omega)
    exact ⟨t, by rwa [show n + (k + 1) + 1 = n + 1 + k + 1 by omega]⟩

/-- SAMPLE of one column that is no enabled fatal one (R83, R99). -/
theorem sample_next (h : Scanning s len ⟨sampleEdge s.cfg len r c, .sample, r, c, ms, es⟩ u) (hst : s.Steady N)
    (hN : sampleEdge s.cfg len r c < N) (hrow : hasRow s.cfg r = true)
    (hok : fatalColumn s.cfg (s.inputAt (sampleEdge s.cfg len r c)) c = false) :
    ∃ t, Scanning s len
      ⟨sampleEdge s.cfg len r c + 1, if c = 3#2 then .deassert else .sample, r, c + 1#2, ms ++ [s.keyRead len r c],
        es ++ if hasCol s.cfg c then [.sample r c] else []⟩ t := by
  obtain ⟨hnow, hrst, -⟩ := h.step_eq hst hN rfl
  have hr : u.r = r := h.row
  have hc : u.c = c := h.col
  have hrule : phaseRule u.now u.beginEdge = sampleRule u.now u.beginEdge := by simp [phaseRule, h.phase]
  rw [sampleRule_of_ok (s := u.beginEdge) (by simp [h.cfg, hc, hnow, hok])] at hrule
  refine ⟨_, h.succ hst hN rfl (.inr (.inr (.inl rfl))) (fun _ => hok) hrule ?phase ?row ?col ?idle ?acc ?events⟩
  case phase => simp [hc, h.phase]
  case row => simp [hr]
  case col =>
    simp only [sampleAdvance_c, State.beginEdge_c, hc]
    split <;> simp [*]
  case idle => split <;> simp
  case acc => simp [h.acc, State.keyRead, hrow, hnow, hc, hr, h.cfg]
  case events => cases hcol : hasCol s.cfg c <;> simp [State.event, hrst, h.phase, h.cfg, hc, hr, hcol]

/-- DEASSERT returns the row to low and goes on (R84). -/
theorem deassert_low (h : Scanning s len ⟨n, .deassert, r, 0#2, ms, es⟩ u) (hst : s.Steady N) (hN : n < N)
    (hok : (s.inputAt n).drvErr = false) :
    ∃ t, Scanning s len
      ⟨n + 1, if r = 3#2 then .finish else .row, if r = 3#2 then r else r + 1#2, 0#2, ms,
        es ++ [.drive r false]⟩ t := by
  obtain ⟨hnow, hrst, -⟩ := h.step_eq hst hN rfl
  have hrule : phaseRule u.now u.beginEdge = deassertRule u.now u.beginEdge := by simp [phaseRule, h.phase]
  rw [deassertRule_of_ok (s := u.beginEdge) (by rw [hnow, hok]) h.pend] at hrule
  refine ⟨_, h.succ hst hN rfl (.inr (.inr (.inr rfl))) nofun hrule ?phase ?row ?col ?idle ?acc ?events⟩
  case phase => simp [h.row]
  case row => simp [h.row]
  case col => simp [h.col]
  case idle => split <;> simp
  case acc => simp [h.acc]
  case events => simp [State.event, hrst, h.phase, h.row]

end Scanning

/-- The scan after `j` columns of row `r`. -/
def Progress.afterColumns (s : State) (len : Nat) (r : Idx) (ms : List Mask) (es : List PinEvent) (j : Nat) :
    Progress where
  edges := rowEdge s.cfg len r + len + 2 + j
  phase := if j = 4 then .deassert else .sample
  row := r
  col := BitVec.ofNat 2 j
  masks := ms ++ (below j).map (s.keyRead len r)
  events := es ++ ((below j).filter fun c => hasCol s.cfg c).map fun c => PinEvent.sample r c

/-- The scan after `k` rows. -/
def Progress.afterRows (s : State) (len k : Nat) : Progress where
  edges := 1 + ((below k).map (rowCycles s.cfg len)).sum
  phase := if k = 4 then .finish else .row
  row := if k = 4 then 3#2 else BitVec.ofNat 2 k
  col := 0#2
  masks := (below k).flatMap fun r => idxs.map (s.keyRead len r)
  events := ((below k).filter fun r => hasRow s.cfg r).flatMap (rowEvents s.cfg)

/-- The count that follows index `r` is 4 only after index 3. -/
theorem toNat_succ_eq_four (r : Idx) : r.toNat + 1 = 4 ↔ r = 3#2 := by revert r; decide

theorem Progress.afterColumns_toNat (s : State) (len : Nat) (r c : Idx) (ms : List Mask) (es : List PinEvent) :
    Progress.afterColumns s len r ms es c.toNat =
      ⟨sampleEdge s.cfg len r c, .sample, r, c, ms ++ (below c.toNat).map (s.keyRead len r),
        es ++ ((below c.toNat).filter fun c => hasCol s.cfg c).map fun c => PinEvent.sample r c⟩ := by
  simp [Progress.afterColumns, sampleEdge, c.isLt.ne]

theorem Progress.afterColumns_succ (s : State) (len : Nat) (r c : Idx) (ms : List Mask) (es : List PinEvent) :
    Progress.afterColumns s len r ms es (c.toNat + 1) =
      ⟨sampleEdge s.cfg len r c + 1, if c = 3#2 then .deassert else .sample, r, c + 1#2,
        ms ++ (below c.toNat).map (s.keyRead len r) ++ [s.keyRead len r c],
        es ++ (((below c.toNat).filter fun c => hasCol s.cfg c).map fun c => PinEvent.sample r c) ++
          if hasCol s.cfg c then [.sample r c] else []⟩ := by
  simp only [Progress.afterColumns, sampleEdge, toNat_succ_eq_four, below_succ, BitVec.ofNat_add, BitVec.ofNat_toNat]
  cases hcol : hasCol s.cfg c <;> simp [hcol, Nat.add_assoc]

theorem Progress.afterRows_toNat (s : State) (len : Nat) (r : Idx) :
    Progress.afterRows s len r.toNat =
      ⟨rowEdge s.cfg len r, .row, r, 0#2, (below r.toNat).flatMap fun r => idxs.map (s.keyRead len r),
        ((below r.toNat).filter fun r => hasRow s.cfg r).flatMap (rowEvents s.cfg)⟩ := by
  simp [Progress.afterRows, rowEdge, below, r.isLt.ne]

theorem Progress.afterRows_succ (s : State) (len : Nat) (r : Idx) :
    Progress.afterRows s len (r.toNat + 1) =
      ⟨rowEdge s.cfg len r + rowCycles s.cfg len r, if r = 3#2 then .finish else .row,
        if r = 3#2 then r else r + 1#2, 0#2,
        ((below r.toNat).flatMap fun r => idxs.map (s.keyRead len r)) ++ idxs.map (s.keyRead len r),
        (((below r.toNat).filter fun r => hasRow s.cfg r).flatMap (rowEvents s.cfg)) ++
          if hasRow s.cfg r then rowEvents s.cfg r else []⟩ := by
  have hlast : (if r = 3#2 then 3#2 else r + 1#2) = if r = 3#2 then r else r + 1#2 := by split <;> simp [*]
  simp only [Progress.afterRows, rowEdge, toNat_succ_eq_four, below_succ, BitVec.ofNat_add, BitVec.ofNat_toNat]
  cases hrow : hasRow s.cfg r <;> simp [hrow, hlast, Nat.add_assoc, below]

/-- `k` rows or columns, one after another. -/
theorem exists_scanning_of_steps {X : Nat → Progress} (h0 : ∃ u, Scanning s len (X 0) u) {k : Nat} (hk : k ≤ 4)
    (hstep : ∀ r : Idx, r.toNat < k → ∀ u, Scanning s len (X r.toNat) u → ∃ t, Scanning s len (X (r.toNat + 1)) t) :
    ∃ t, Scanning s len (X k) t := by
  induction k with
  | zero => exact h0
  | succ k ih =>
    obtain ⟨u, hu⟩ := ih (by omega) fun r hr => hstep r (by omega)
    have hk' : (BitVec.ofNat 2 k).toNat = k := by simp; omega
    have hlast := hstep (BitVec.ofNat 2 k) (by omega) u
    rw [hk'] at hlast
    exact hlast hu

namespace Scanning
variable {u : State} {r : Idx} {ms : List Mask} {es : List PinEvent}

/-- A present row whose drive-high succeeds and that shows no enabled fatal column comes to its DEASSERT edge (R81 to R83,
R99). -/
theorem row_to_deassert (h : Scanning s len ⟨rowEdge s.cfg len r, .row, r, 0#2, ms, es⟩ u) (hst : s.Steady N)
    (hN : deassertEdge s.cfg len r ≤ N) (hrow : hasRow s.cfg r = true)
    (hhigh : (s.inputAt (rowEdge s.cfg len r)).drvErr = false)
    (hcols : ∀ c ∈ idxs, fatalColumn s.cfg (s.inputAt (sampleEdge s.cfg len r c)) c = false) :
    ∃ t, Scanning s len
      ⟨deassertEdge s.cfg len r, .deassert, r, 0#2, ms ++ idxs.map (s.keyRead len r),
        es ++ [.drive r true] ++ (idxs.filter fun c => hasCol s.cfg c).map fun c => PinEvent.sample r c⟩ t := by
  unfold deassertEdge at hN
  obtain ⟨v, hv, hcnt⟩ := h.row_high hst (by omega) hrow hhigh
  have hsettled := hv.settle_ends hst hcnt (by omega)
  rw [show rowEdge s.cfg len r + 1 + len + 1 = rowEdge s.cfg len r + len + 2 by omega] at hsettled
  refine exists_scanning_of_steps (X := Progress.afterColumns s len r ms (es ++ [.drive r true])) ?start le_rfl ?column
  case start => simpa [Progress.afterColumns, below] using hsettled
  case column =>
    intro c hc w hw
    rw [Progress.afterColumns_toNat] at hw
    rw [Progress.afterColumns_succ]
    exact hw.sample_next hst (by unfold sampleEdge; omega) hrow (hcols c (mem_idxs c))

/-- One row without a failure, present or absent (R81 to R84, R99). -/
theorem row_passes (h : Scanning s len (.afterRows s len r.toNat) u) (hst : s.Steady N)
    (hN : rowEdge s.cfg len r + rowCycles s.cfg len r ≤ N) (hok : s.RowSucceeds len r) :
    ∃ t, Scanning s len (.afterRows s len (r.toNat + 1)) t := by
  rw [Progress.afterRows_toNat] at h
  rw [Progress.afterRows_succ]
  unfold rowCycles at hN ⊢
  cases hrow : hasRow s.cfg r with
  | false =>
    simp only [hrow, Bool.false_eq_true, if_false, List.append_nil] at hN ⊢
    exact h.row_skip hst (by omega) hrow
  | true =>
    simp only [hrow, if_true] at hN ⊢
    obtain ⟨hhigh, hlow, hcols⟩ := hok hrow
    obtain ⟨v, hv⟩ := h.row_to_deassert hst (by unfold deassertEdge; omega) hrow hhigh hcols
    obtain ⟨t, ht⟩ := hv.deassert_low hst (by unfold deassertEdge; omega) hlow
    exact ⟨t, by simpa [deassertEdge, rowEvents, Nat.add_assoc] using ht⟩

/-- A failed drive of a present row aborts the scan (R81, R84, 60_exceptions.md R103, R104). -/
theorem aborts (h : Scanning s len ⟨n, p, r, 0#2, ms, es⟩ u) (hst : s.Steady N) (hN : n < N)
    (hp : p = .row ∧ hasRow s.cfg r = true ∨ p = .deassert) (herr : (s.inputAt n).drvErr = true)
    (hlow : s.OnlyScannedRowHigh) :
    ∃ t, run (n + 1) s = .next t ∧ t.phase = .idle ∧ t.doneQ = true ∧ t.validQ = false ∧
      t.errCodeQ = (if p = .row then 0b001#3 else 0b010#3) ∧ t.errRowQ = r ∧ t.errColQ = 0#2 ∧ t.maskQ = s.maskQ ∧
      t.rowQ = (if p = .row then 0b0000#4 else 1#4 <<< r.toNat) ∧
      t.padLevel r = lineBit (Config.freePad t.cycle) r := by
  have hword : reachableWord p r 0#2 = true := by obtain ⟨rfl, -⟩ | rfl := hp <;> rfl
  obtain ⟨hnow, hrst, hstep⟩ := h.step_eq hst hN hword
  have hfails : u.now.drvErr = true := by rw [hnow]; exact herr
  have hrow : u.r = r := h.row
  have hphase : u.phase = p := h.phase
  have hdone : (phaseRule u.now u.beginEdge).doneQ = true := by
    obtain ⟨rfl, hpresent⟩ | rfl := hp
    · simp [phaseRule, hphase, rowRule, h.cfg, hrow, hpresent, hfails]
    · simp [phaseRule, hphase, deassertRule, hfails]
  have hdrives : u.phase = .row ∨ u.phase = .deassert := by
    rw [hphase]
    exact hp.imp And.left id
  have hscan : u.busy = true ∧ u.phase ≠ .init ∧ u.phase ≠ .finish := by
    obtain hu | hu := hdrives <;> simp [State.busy, hu]
  obtain ⟨hbusy, hinit, hfinish⟩ := hscan
  obtain ⟨hidle, -, -, -, herrRow, -, hmask, hvalid, herrCol, -, -, hcause⟩ :=
    abortRecordsItsCause u _ hstep hrst hdone hfinish
  obtain ⟨-, -, hrows⟩ := rowLevelsAtTheEndOfAScan u _ (h.rows hlow) hstep hbusy hinit hidle
  have hcode : (phaseRule u.now u.beginEdge).errCodeQ = if p = .row then 0b001#3 else 0b010#3 := by
    obtain ⟨hpu, -, -, hcode, -⟩ | ⟨hpu, -, hcode, -⟩ | ⟨-, hok, -⟩ := hcause
    · simp [hcode, ← hphase, hpu]
    · simp [hcode, ← hphase, hpu]
    · simp [hfails] at hok
  have hreq : u.drvReq = true := by
    obtain ⟨rfl, hpresent⟩ | rfl := hp
    · simp [State.drvReq, hphase, h.cfg, hrow, hpresent]
    · simp [State.drvReq, hphase]
  have hpad := padLevel_of_failed_drive hstep hrst hreq hfails
  rw [hrow] at hpad
  refine ⟨_, run_succ_of_last h.ran hstep, hidle, hdone, hvalid.trans h.valid, hcode, herrRow.trans hrow,
    herrCol.trans h.errCol, hmask.trans h.mask, ?rowLevels, hpad⟩
  rw [hrows, hcode, herrRow, hrow, hphase]
  obtain ⟨rfl, -⟩ | rfl := hp <;> rfl

end Scanning

/-- A row ends where the rows up to it have taken their cycles (70_reset_and_hazards.md R135). -/
theorem rowEdge_add_rowCycles (cfg : Cfg) (len : Nat) (r : Idx) :
    rowEdge cfg len r + rowCycles cfg len r = 1 + ((below (r.toNat + 1)).map (rowCycles cfg len)).sum := by
  rw [below_succ]
  simp [rowEdge, below, Nat.add_assoc]

/-- More rows take no fewer cycles. -/
theorem sum_rowCycles_mono (cfg : Cfg) (len : Nat) {j k : Nat} (hjk : j ≤ k) :
    ((below j).map (rowCycles cfg len)).sum ≤ ((below k).map (rowCycles cfg len)).sum := by
  have hsub : (below j).Sublist (below k) := List.monotone_filter_right idxs fun i hi => by simp at hi ⊢; omega
  exact (hsub.map _).sum_le_sum fun _ _ => Nat.zero_le _

/-- The scan after `k` rows without a failure. -/
theorem exists_scanning_afterRows (hat : s.At .idle 0#2) (hlen : len = s.now.settleLen % 2 ^ s.sw)
    (hcmd : s.now.cmd = 0b01#2) (hst : s.Steady N) {k : Nat} (hk : k ≤ 4)
    (hN : 1 + ((below k).map (rowCycles s.cfg len)).sum ≤ N)
    (hok : ∀ r ∈ idxs, r.toNat < k → s.RowSucceeds len r) : ∃ t, Scanning s len (.afterRows s len k) t := by
  refine exists_scanning_of_steps ?start hk fun r hr u hu => ?row
  case start => simpa [Progress.afterRows, below] using scanning_of_read hat hlen hcmd hst (by omega)
  case row =>
    have hmono := sum_rowCycles_mono s.cfg len (Nat.succ_le_of_lt hr)
    rw [Nat.succ_eq_add_one] at hmono
    exact hu.row_passes hst (by rw [rowEdge_add_rowCycles]; omega) (hok r (mem_idxs r) hr)

end

end Sys2Proof.Machine
end

section
/-! Scans from READ to their end: the pin events of one that succeeds, and the first failed drive of one that aborts
(20_memory.md R51 to R54, 60_exceptions.md R106, R107). -/

namespace Sys2Proof.Machine

/-- The cycles of some rows: `len + 7` for a present one, 1 for an absent one (70_reset_and_hazards.md R135). -/
theorem sum_rowCycles (cfg : Cfg) (len : Nat) (l : List Idx) :
    (l.map (rowCycles cfg len)).sum =
      (l.filter fun r => hasRow cfg r).length * (len + 7) + (l.length - (l.filter fun r => hasRow cfg r).length) := by
  induction l with
  | nil => simp
  | cons r l ih =>
    have hle := List.length_filter_le (fun r => hasRow cfg r) l
    cases hrow : hasRow cfg r with
    | false => simp [rowCycles, hrow, ih]; omega
    | true => simp [rowCycles, hrow, ih, Nat.succ_mul]; omega

/-- The rows' cycles add up to the FINISH edge of R100. -/
theorem finishEdge_eq_sum (cfg : Cfg) (len : Nat) :
    finishEdge cfg len = 1 + ((below 4).map (rowCycles cfg len)).sum := by
  rw [sum_rowCycles, ← Nat.add_assoc]
  rfl

/-- Settles O51: the events of four rows, then FINISH. -/
theorem scanEventsAreInOrder : Obligations.ScanEventsAreInOrder := by
  intro s len hat hlen hcmd hst hok
  obtain ⟨u, hu⟩ := exists_scanning_afterRows hat hlen hcmd hst le_rfl (by rw [finishEdge_eq_sum]; omega)
    fun r hr _ => hok r hr
  obtain ⟨-, hrst, hstep⟩ := hu.step_eq hst (by simp [Progress.afterRows, finishEdge_eq_sum]) rfl
  have hpublish : u.event.toList = [.publish (s.scanResult len)] := by
    have hacc : u.acc = s.scanResult len := hu.acc
    simp [State.event, hrst, hu.phase, Progress.afterRows, hacc]
  have htrace := trace_succ_of_last hu.ran hstep
  rw [hu.events, hpublish] at htrace
  rw [finishEdge_eq_sum]
  exact htrace

/-- In IDLE, no row high is the one-row property. -/
theorem onlyScannedRowHigh_of_idle {s : State} (hp : s.phase = .idle) (hlow : s.rowQ = 0b0000#4) :
    s.OnlyScannedRowHigh := by
  simp [State.OnlyScannedRowHigh, hp, hlow]

/-- Settles O53: the rows before `k`, then the abort at the drive-high of row `k`. -/
theorem scanAbortsAtFirstFailedRowHigh : Obligations.ScanAbortsAtFirstFailedRowHigh := by
  intro s len k hat hlen hcmd hlow hst hok hrow herr
  obtain ⟨u, hu⟩ := exists_scanning_afterRows hat hlen hcmd hst k.isLt.le (Nat.le_succ _) hok
  rw [Progress.afterRows_toNat] at hu
  simpa using hu.aborts hst (Nat.lt_succ_self _) (.inl ⟨rfl, hrow⟩) herr (onlyScannedRowHigh_of_idle hat.1 hlow)

/-- Settles O54: the rows before `k`, row `k` up to its DEASSERT edge, then the abort at its drive-low. -/
theorem scanAbortsAtFirstFailedRowLow : Obligations.ScanAbortsAtFirstFailedRowLow := by
  intro s len k hat hlen hcmd hlow hst hok hrow hhigh hcols herr
  have hrows : rowEdge s.cfg len k ≤ deassertEdge s.cfg len k + 1 := by unfold deassertEdge; omega
  obtain ⟨u, hu⟩ := exists_scanning_afterRows hat hlen hcmd hst k.isLt.le hrows hok
  rw [Progress.afterRows_toNat] at hu
  obtain ⟨v, hv⟩ := hu.row_to_deassert hst (Nat.le_succ _) hrow hhigh hcols
  simpa using hv.aborts hst (Nat.lt_succ_self _) (.inr rfl) herr (onlyScannedRowHigh_of_idle hat.1 hlow)

end Sys2Proof.Machine
end

section
/-! The fields of a word and the instruction they name (30_encoding.md R58 to R63). -/

namespace Sys2Proof

/-! ### Fields -/

/-- Bit `j` of a field is bit `lo + j` of the word (00_scope.md R8). -/
theorem testBit_wordField (w lo width j : Nat) :
    (wordField w lo width).testBit j = (decide (j < width) && w.testBit (lo + j)) := by
  rw [wordField, Nat.testBit_mod_two_pow, Nat.testBit_div_two_pow, Nat.add_comm]

/-- A field of one bit is 1 where that bit is 1. -/
theorem wordField_one_eq_one (w k : Nat) : (wordField w k 1 == 1) = w.testBit k := by
  rw [wordField, pow_one, Nat.testBit_eq_decide_div_mod_eq]
  rfl

/-- Every number of 7 bits is made up of three fields (R61). -/
theorem exists_stateBits_eq {w : Nat} (h : w < 2 ^ 7) : ∃ p r c, stateBits p r c = w := by
  refine ⟨Phase.ofCode (BitVec.ofNat 3 (wordField w 4 3)), BitVec.ofNat 2 (wordField w 2 2),
    BitVec.ofNat 2 (wordField w 0 2), ?_⟩
  simp only [stateBits, Phase.code_ofCode, BitVec.toNat_ofNat, wordField]
  omega

/-! ### Host words -/

/-- A host word with given fields decodes to the command they name (R58). -/
theorem decode_hostBits (sw : Nat) (rst : Bool) (cmd : BitVec 2) (len : Nat) :
    decode sw .hostcmd (hostBits sw rst cmd len) = .ok (hostCommand rst cmd (len % 2 ^ sw)) := by
  have hrst : (rst.toNat == 1) = rst := by cases rst <;> rfl
  simp [decode, decodeHost, hostBits_lt, wordField_hostBits_rst, wordField_hostBits_cmd, wordField_hostBits_len, hrst]

/-- The table of R59, by the two bits of `cmd`. -/
theorem hostCommand_eq_of_cmd_bits (rst : Bool) (cmd : BitVec 2) (len : Nat) :
    hostCommand rst cmd len =
      if rst then .reset
      else if cmd.getLsbD 1 then (if cmd.getLsbD 0 then .rsv3 else .rsv2)
      else (if cmd.getLsbD 0 then .read len else .nop) := by
  have hcmd : cmd = 0b00#2 ∨ cmd = 0b01#2 ∨ cmd = 0b10#2 ∨ cmd = 0b11#2 := by revert cmd; decide
  obtain rfl | rfl | rfl | rfl := hcmd <;> rfl

/-- Settles O2: the decoder's fields, read bit by bit, are the top three bits of the word. -/
theorem everyHostWordNamesOneCommand : Obligations.EveryHostWordNamesOneCommand := by
  intro sw H hH
  have hrst : (wordField H (sw + 2) 1 == 1) = H.testBit (sw + 2) := wordField_one_eq_one H (sw + 2)
  have hcmd1 : (BitVec.ofNat 2 (wordField H sw 2)).getLsbD 1 = H.testBit (sw + 1) := by
    rw [BitVec.getLsbD_ofNat, testBit_wordField]
    rfl
  have hcmd0 : (BitVec.ofNat 2 (wordField H sw 2)).getLsbD 0 = H.testBit sw := by
    rw [BitVec.getLsbD_ofNat, testBit_wordField]
    rfl
  have hlen : wordField H 0 sw = H % 2 ^ sw := by rw [wordField, pow_zero, Nat.div_one]
  rw [decode, decodeHost, if_pos hH, hostCommand_eq_of_cmd_bits, hrst, hcmd1, hcmd0, hlen]

/-! ### State words -/

/-- A state word with given fields decodes to the micro-operation they name (R61). -/
theorem decode_stateBits (sw : Nat) (p : Phase) (r c : Idx) :
    decode sw .state (stateBits p r c) = .ok (microOp p r c) := by
  rw [decode, decodeState, if_pos (stateBits_lt p r c), wordField_stateBits_phase, wordField_stateBits_r,
    wordField_stateBits_c]
  simp

theorem encode_microOp (sw : Nat) (p : Phase) (r c : Idx) : encode sw (microOp p r c) = stateBits p r c := by
  cases p <;> rfl

/-- Settles O3: a state word is made up of its three fields; the well-formed ones of the 128 are counted. -/
theorem stateWordsHaveOneMeaning : Obligations.StateWordsHaveOneMeaning := by
  refine ⟨fun w hw => ?_, by decide⟩
  obtain ⟨p, r, c, rfl⟩ := exists_stateBits_eq hw
  exact ⟨microOp p r c, decode_stateBits 16 p r c, encode_microOp 16 p r c⟩

/-! ### Both formats -/

/-- Settles O1: the encoder writes the fields that the decoder reads; a settle count that fits SW bits is not cut. -/
theorem decodeEncodeRoundTrip : Obligations.DecodeEncodeRoundTrip := by
  intro sw i hwf
  cases i with
  | reset => exact decode_hostBits sw true 0b00#2 0
  | nop => exact decode_hostBits sw false 0b00#2 0
  | read len =>
    have hlen : len % 2 ^ sw = len := Nat.mod_eq_of_lt (of_decide_eq_true hwf)
    have hdecode := decode_hostBits sw false 0b01#2 len
    rw [hlen] at hdecode
    exact hdecode
  | rsv2 => exact decode_hostBits sw false 0b10#2 0
  | rsv3 => exact decode_hostBits sw false 0b11#2 0
  | init r c => exact decode_stateBits sw .init r c
  | idle r c => exact decode_stateBits sw .idle r c
  | row r c => exact decode_stateBits sw .row r c
  | settle r c => exact decode_stateBits sw .settle r c
  | sample r c => exact decode_stateBits sw .sample r c
  | deassert r c => exact decode_stateBits sw .deassert r c
  | finish r c => exact decode_stateBits sw .finish r c
  | initFailed r c => exact decode_stateBits sw .initFailed r c

/-- Settles O4: each word is the one with the fields given here. -/
theorem writtenOutWordsDecode : Obligations.WrittenOutWordsDecode :=
  ⟨decode_hostBits 16 true 0b00#2 0, decode_hostBits 16 true 0b01#2 7, decode_hostBits 16 false 0b00#2 0,
    decode_hostBits 16 false 0b01#2 7, decode_hostBits 16 false 0b10#2 0, decode_hostBits 16 false 0b11#2 0,
    decode_stateBits 16 .init 3#2 0#2, decode_stateBits 16 .idle 0#2 0#2, decode_stateBits 16 .row 2#2 0#2,
    decode_stateBits 16 .settle 1#2 0#2, decode_stateBits 16 .sample 3#2 2#2, decode_stateBits 16 .deassert 1#2 0#2,
    decode_stateBits 16 .finish 3#2 0#2, decode_stateBits 16 .initFailed 0#2 0#2⟩

end Sys2Proof
end

section
/-! The stops of 93_implementation_defined.md U7 and U6. -/

namespace Sys2Proof.Machine

/-- A micro-operation is one edge under the phase rule, at its state word (41_scan_fsm.md R78). -/
theorem exec_microOp (p : Phase) (r c : Idx) (s : State) :
    exec (microOp p r c) s = edge phaseRule (s.atWord p r c) := by
  have hplaced : exec (microOp p r c) s = exec (microOp p r c) (s.atWord p r c) := by cases p <;> rfl
  rw [hplaced]
  exact exec_microOp_self (s.atWord p r c)

/-- U7: one of the 93 unreachable state words stops the edge. -/
theorem edge_of_unreachable_word (rule : Inputs → State → State) {s : State} (hd : s.HostDuties)
    (hw : reachableWord s.phase s.r s.c = false) : edge rule s = .fault .unreachableStateWord := by
  obtain ⟨hl, hcfg, hlayout⟩ := hd
  simp [edge, hl, hcfg, hlayout, hw]

/-- U6: a reserved error code stops the edge. -/
theorem edge_of_reserved_code (rule : Inputs → State → State) {s : State} (hd : s.HostDuties) (hw : s.WordReachable)
    (hcode : assignedErrCode s.errCodeQ = false) : edge rule s = .fault .reservedErrorCode := by
  obtain ⟨hl, hcfg, hlayout⟩ := hd
  have hword : reachableWord s.phase s.r s.c = true := hw
  simp [edge, hl, hcfg, hlayout, hword, hcode]

/-- Settles O9: a micro-operation that is not well-formed is at an unreachable word. -/
theorem unreachableStateWordFaults : Obligations.UnreachableStateWordFaults := by
  intro s p r c hd hwf
  rw [microOp_wf] at hwf
  rw [exec_microOp]
  exact edge_of_unreachable_word phaseRule (s := s.atWord p r c) hd hwf

/-- Settles O10: a code above 100 is not assigned. -/
theorem reservedErrorCodeFaults : Obligations.ReservedErrorCodeFaults := by
  intro s hd hw hrst hcode
  have hreserved : assignedErrCode s.errCodeQ = false := decide_eq_false (Nat.not_le.mpr hcode)
  rw [step_of_no_reset hrst, edge_of_reserved_code _ hd hw hreserved]

end Sys2Proof.Machine
end

section
/-! The bits of a set of keys (30_encoding.md R66, 20_memory.md R44). -/

namespace Sys2Proof.Machine

/-- A bit of an OR over a list of masks is 1 where one of them has it. -/
theorem getLsbD_foldl_or (l : List Mask) (a : Mask) (n : Nat) :
    (l.foldl (· ||| ·) a).getLsbD n = (a.getLsbD n || l.any fun m => m.getLsbD n) := by
  induction l generalizing a with
  | nil => simp
  | cons m l ih => simp [ih, Bool.or_assoc]

/-- A key's mask has the bit that its LAYOUT cell names, and no other (R69). -/
theorem getLsbD_keyMask (layout : Layout) (r c : Idx) (b : BitVec 4) :
    (keyMask layout r c).getLsbD b.toNat = decide (layoutRead layout r c = b) := by
  have honeHot : ∀ a : BitVec 4, (oneHot a).getLsbD b.toNat = decide (a = b) := by revert b; decide
  exact honeHot _

/-- A bit of the OR over a set of keys is 1 where some key of the set has it. -/
theorem getLsbD_orKeys_iff (layout : Layout) (f : Idx → Idx → Bool) (n : Nat) :
    (orKeys layout f).getLsbD n = true ↔ ∃ r c, f r c = true ∧ (keyMask layout r c).getLsbD n = true := by
  have hmask : ∀ r c, (if f r c then keyMask layout r c else 0#16).getLsbD n =
      (f r c && (keyMask layout r c).getLsbD n) := by
    intro r c
    cases f r c <;> simp
  simp [orKeys, getLsbD_foldl_or, List.any_flatMap, List.any_map, Function.comp_def, hmask, mem_idxs]

/-- Settles O40: of all keys, only the one whose cell holds the bit can set it. -/
theorem maskBitBelongsToOneKey : Obligations.MaskBitBelongsToOneKey := by
  intro layout f r c hwf
  rw [Bool.eq_iff_iff, getLsbD_orKeys_iff]
  simp only [getLsbD_keyMask, decide_eq_true_eq]
  constructor
  · rintro ⟨r', c', hf, hcell⟩
    by_cases hkey : (r', c') = (r, c)
    · obtain ⟨rfl, rfl⟩ := Prod.mk.inj hkey
      exact hf
    · exact absurd hcell (layoutRead_ne hwf hkey)
  · exact fun hf => ⟨r, c, hf, rfl⟩

end Sys2Proof.Machine
end

section
/-! The invariant of the registers, one clause at a time, across one edge (30_encoding.md R63, R65, 10_state.md R28 to
R32, 41_scan_fsm.md R84, R86). -/

namespace Sys2Proof.Machine

/-! ### What the clauses say of a state -/

/-- Outside SAMPLE a reachable state word has `c = 0` (30_encoding.md R63). -/
theorem col_of_wordReachable {s : State} (h : s.WordReachable) (hp : s.phase ≠ .sample) : s.c = 0#2 := by
  unfold State.WordReachable at h
  cases hphase : s.phase with
  | sample => exact absurd hphase hp
  | idle | finish | initFailed =>
    obtain ⟨-, hc⟩ : _ ∧ s.c = 0#2 := by simpa [hphase, reachableWord] using h
    exact hc
  | init | row | settle | deassert => simpa [hphase, reachableWord] using h

/-- While the block is busy it shows no pulse, no valid mask and no error (10_state.md R31 to R33). -/
theorem no_status_of_busy {s : State} (h : s.StatusFitsPhase) (hbusy : s.busy = true) :
    s.doneQ = false ∧ s.validQ = false ∧ s.errCodeQ = 0b000#3 := by
  obtain ⟨hdone, hvalid, hcode, -, -⟩ := h
  obtain ⟨hidle, hfailed⟩ : s.phase ≠ .idle ∧ s.phase ≠ .initFailed := by simpa [State.busy] using hbusy
  refine ⟨?_, ?_, ?_⟩
  · simpa [hidle] using hdone
  · simpa [hidle] using hvalid
  · simpa [hidle, hfailed] using hcode

/-- Outside DEASSERT no fatal column is pending (10_state.md R30). -/
theorem no_pending_outside_deassert {s : State} (h : s.StatusFitsPhase) (hp : s.phase ≠ .deassert) :
    s.pendFatal = false := by
  obtain ⟨-, -, -, -, hpend⟩ := h
  simpa [hp] using hpend

/-- No status at all fits every phase but INIT_FAILED. -/
theorem statusFitsPhase_of_no_status {t : State} (hstatus : t.doneQ = false ∧ t.validQ = false ∧ t.errCodeQ = 0b000#3)
    (hp : t.phase ≠ .initFailed) (hpend : t.phase ≠ .deassert → t.pendFatal = false) : t.StatusFitsPhase := by
  obtain ⟨hdone, hvalid, hcode⟩ := hstatus
  refine ⟨by simp [hdone], by simp [hvalid], by simp [hcode], by simp [hcode, hp, codeInitLowFail], fun hset => ?_⟩
  by_contra hne
  simp [hpend hne] at hset

/-- The status of a scan abort is one of IDLE (60_exceptions.md R104). -/
theorem raiseHwIoFail_statusFitsPhase {code : ErrCode} (row : Idx) {s : State} (hcode : code ≠ codeInitLowFail)
    (hvalid : s.validQ = false) : (raiseHwIoFail code row s).StatusFitsPhase := by
  simp [State.StatusFitsPhase, hcode, hvalid]

/-! ### What each branch of an edge does to them -/

section
variable {s t : State}

/-- The state word stays among the 35 of R63: `c` is nonzero in SAMPLE only, and FINISH follows row 3. -/
theorem PhaseEdge.keeps_wordReachable (e : PhaseEdge s t) (h : s.WordReachable) : t.WordReachable := by
  have hcol := col_of_wordReachable h
  unfold State.WordReachable at h ⊢
  cases e with
  | initSkip hp | initLow hp => by_cases hr : s.r = 3#2 <;> simp [hp, hr, hcol, reachableWord]
  | initFail hp | rowSkip hp | rowHigh hp | lowNext hp | publish hp => simp [hp, hcol, reachableWord]
  | rowSkipLast hp _ hr | lowLast hp _ _ hr => simp [hp, hr, hcol, reachableWord]
  | samplePressed hp | sampleReleased hp => by_cases hc : s.c = 3#2 <;> simp [hp, hc, reachableWord]
  | read | settleEnd | sampleFatal | rowFail | lowFail | lowFatal => simp [reachableWord]
  | wait | settleCount | failed => exact h

/-- No branch writes a reserved error code (30_encoding.md R65). -/
theorem PhaseEdge.keeps_codeAssigned (e : PhaseEdge s t) (h : s.CodeAssigned) : t.CodeAssigned := by
  unfold State.CodeAssigned at h ⊢
  cases e with
  | initFail => simp [codeInitLowFail]
  | rowFail => simp [codeRowHighFail]
  | lowFail => simp [codeRowLowFail]
  | lowFatal => simp [codeColFatal]
  | read => simp
  | _ => simpa using h

/-- The latch takes the SW-bit port, the counter takes the latch and counts down (10_state.md R28, R29). -/
theorem PhaseEdge.keeps_countersFit (e : PhaseEdge s t) (h : s.CountersFit) : t.CountersFit := by
  obtain ⟨hcnt, hlen⟩ := h
  unfold State.CountersFit
  cases e with
  | read => exact ⟨hcnt, Nat.mod_lt _ (Nat.two_pow_pos s.sw)⟩
  | rowHigh => exact ⟨hlen, hlen⟩
  | settleCount => exact ⟨(Nat.sub_le s.cnt 1).trans_lt hcnt, hlen⟩
  | _ => simp [hcnt, hlen]

/-- A busy phase goes on without status, until FINISH, an abort or the INIT failure writes it; READ clears it. -/
theorem PhaseEdge.keeps_statusFitsPhase (e : PhaseEdge s t) (h : s.StatusFitsPhase) : t.StatusFitsPhase := by
  have hquiet := no_status_of_busy h
  have hpend := no_pending_outside_deassert h
  cases e with
  | initSkip hp | initLow hp | rowSkipLast hp | rowSkip hp | rowHigh hp | settleEnd hp | settleCount hp | sampleFatal hp
  | samplePressed hp | sampleReleased hp | lowLast hp _ hpend | lowNext hp _ hpend =>
    obtain ⟨-, hvalid, hcode⟩ := hquiet (by simp [State.busy, hp])
    exact statusFitsPhase_of_no_status (by simp [hvalid, hcode]) (by simp [hp, ite_eq_iff]) (by simp [hp, hpend])
  | read => exact statusFitsPhase_of_no_status (by simp) (by simp) (by simp)
  | rowFail hp | lowFail hp | lowFatal hp =>
    obtain ⟨-, hvalid, -⟩ := hquiet (by simp [State.busy, hp])
    exact raiseHwIoFail_statusFitsPhase _ (by decide) hvalid
  | initFail hp =>
    obtain ⟨-, hvalid, -⟩ := hquiet (by simp [State.busy, hp])
    simp [State.StatusFitsPhase, hvalid, hpend, hp]
  | publish hp =>
    obtain ⟨-, -, hcode⟩ := hquiet (by simp [State.busy, hp])
    simp [State.StatusFitsPhase, hcode, hpend, hp, codeInitLowFail]
  | wait | failed =>
    obtain ⟨-, hvalid, hcode, hfailed, hpending⟩ := h
    exact ⟨by simp, hvalid, hcode, hfailed, hpending⟩

/-- The row is raised on the way into SETTLE and lowered on the way out of DEASSERT; SETTLE ends at count 0
(41_scan_fsm.md R81, R82, R84). -/
theorem PhaseEdge.keeps_rowInScan (e : PhaseEdge s t) (h : s.RowInScan) : t.RowInScan := by
  obtain ⟨hrow, hcnt⟩ := h
  unfold Phase.rowHigh at hrow
  unfold State.RowInScan Phase.rowHigh
  cases e with
  | initSkip hp | initLow hp => by_cases hr : s.r = 3#2 <;> simp [hp, hr]
  | rowHigh hp hpresent => simp [hpresent, lineBit_setLine]
  | settleEnd hp hzero => simp [hrow, hp, hzero]
  | settleCount hp => simp [hrow, hp]
  | sampleFatal hp | samplePressed hp | sampleReleased hp => simp [hrow, hcnt, hp]
  | wait hp | rowSkip hp | failed hp => simp [hp]
  | _ => simp

end

/-- RESET leads to the invariant from every state: no clause of it reads a field in which the next state differs from
the one of R19. -/
theorem resetRule_inv (i : Inputs) (s : State) : (resetRule i s).Inv := afterReset_inv s.sw i.cfg

/-- Settles O26: clause by clause over the branches of the edge. -/
theorem invariantKeptByEveryStep : Obligations.InvariantKeptByEveryStep := by
  intro s t ⟨hword, hcode, hcounters, hstatus, hscan⟩ h
  obtain ⟨-, rfl⟩ | ⟨hrst, -⟩ := step_cases h
  · exact resetRule_inv s.now s
  · have e := phaseEdge_of_step h hrst
    exact ⟨e.keeps_wordReachable hword, e.keeps_codeAssigned hcode, e.keeps_countersFit hcounters,
      e.keeps_statusFitsPhase hstatus, e.keeps_rowInScan hscan⟩

end Sys2Proof.Machine
end

section
/-! The host commands (40_commands.md R73 to R77): what a command does outside IDLE, and NOP, READ, RSV2 and RSV3 in
IDLE. -/

namespace Sys2Proof.Machine

/-! ### Each command is one edge at which the host presents it -/

theorem exec_nop (s : State) : exec .nop s = edge (commandRule nopRule) (s.present false 0b00#2 0) := rfl

theorem exec_read (len : Nat) (s : State) :
    exec (.read len) s = edge (commandRule readRule) (s.present false 0b01#2 len) := rfl

theorem exec_rsv2 (s : State) : exec .rsv2 s = edge (commandRule rsv2Rule) (s.present false 0b10#2 0) := rfl

theorem exec_rsv3 (s : State) : exec .rsv3 s = edge (commandRule rsv3Rule) (s.present false 0b11#2 0) := rfl

/-! ### Outside IDLE -/

/-- R77: outside IDLE no phase rule reads what the host presents, so the edge is that of the state word. -/
theorem edge_command_elsewhere (rule : Inputs → State → State) {s : State} (cmd : BitVec 2) (len : Nat)
    (hp : s.phase ≠ .idle) :
    edge (commandRule rule) (s.present false cmd len) = exec (microOp s.phase s.r s.c) s := by
  have hbegun : s.beginEdge.phase ≠ .idle := hp
  have hrule : commandRule rule (s.present false cmd len).now (s.present false cmd len).beginEdge =
      phaseRule s.now s.beginEdge := by
    rw [now_present, beginEdge_present, commandRule_elsewhere rule _ hbegun, phaseRule_ignores_host _ _ _ _ hbegun]
  rw [exec_microOp_self]
  exact edge_agree rfl rfl rfl rfl rfl rfl rfl hrule

/-- Settles O15: each of the four commands is an edge whose rule acts only in IDLE. -/
theorem commandOutsideIdleIsIgnored : Obligations.CommandOutsideIdleIsIgnored := by
  intro s len hp
  rw [exec_nop, exec_read, exec_rsv2, exec_rsv3]
  exact ⟨edge_command_elsewhere _ _ _ hp, edge_command_elsewhere _ _ _ hp, edge_command_elsewhere _ _ _ hp,
    edge_command_elsewhere _ _ _ hp⟩

/-! ### In IDLE -/

/-- Settles O12: the rule of NOP keeps the state in which the edge began. -/
theorem nopInIdleOnlyClearsDone : Obligations.NopInIdleOnlyClearsDone := by
  intro s hs hcfg
  rw [exec_nop, edge_command_in_idle _ _ _ hs hcfg]
  rfl

/-- An operand that fits the SW-bit port is read back as it was presented (30_encoding.md R68). -/
theorem settle_of_lt {sw len : Nat} (i : Inputs) (hlen : len < 2 ^ sw) :
    Inputs.settle sw { i with settleLen := len } = len := Nat.mod_eq_of_lt hlen

/-- Settles O13: the writes of the rule of READ, with the operand as the port shows it. -/
theorem readInIdleStartsAScan : Obligations.ReadInIdleStartsAScan := by
  intro s len hs hcfg hlen
  have hport : Inputs.settle s.beginEdge.sw { s.now with rst := false, cmd := 0b01#2, settleLen := len } = len :=
    settle_of_lt { s.now with rst := false, cmd := 0b01#2 } hlen
  rw [exec_read, edge_command_in_idle _ _ _ hs hcfg, readRule, hport]
  rfl

/-- R76: a command whose rule writes nothing is NOP in every phase: in IDLE by its rule, elsewhere because every command
is ignored. -/
theorem edge_command_eq_nop {rule : Inputs → State → State} (hrule : ∀ i u, rule i u = u) (cmd : BitVec 2) (len : Nat)
    (s : State) : edge (commandRule rule) (s.present false cmd len) = exec .nop s := by
  rw [exec_nop]
  by_cases hp : s.phase = .idle
  · have hbegun : s.beginEdge.phase = .idle := hp
    refine edge_agree rfl rfl rfl rfl rfl rfl rfl ?_
    rw [beginEdge_present, beginEdge_present, commandRule_in_idle rule _ hbegun, commandRule_in_idle nopRule _ hbegun]
    exact hrule _ _
  · rw [edge_command_elsewhere rule cmd len hp, edge_command_elsewhere nopRule _ _ hp]

theorem exec_rsv2_eq_nop (s : State) : exec .rsv2 s = exec .nop s := edge_command_eq_nop (fun _ _ => rfl) _ _ s

theorem exec_rsv3_eq_nop (s : State) : exec .rsv3 s = exec .nop s := edge_command_eq_nop (fun _ _ => rfl) _ _ s

/-- Settles O14: RSV2 and RSV3 are NOP, so in IDLE they do what NOP does there. -/
theorem reservedCommandsActAsNop : Obligations.ReservedCommandsActAsNop := by
  refine ⟨fun s => ⟨exec_rsv2_eq_nop s, exec_rsv3_eq_nop s⟩, fun s hs hcfg => ?_⟩
  rw [exec_rsv2_eq_nop, exec_rsv3_eq_nop]
  exact ⟨nopInIdleOnlyClearsDone s hs hcfg, nopInIdleOnlyClearsDone s hs hcfg⟩

end Sys2Proof.Machine
end

section
/-! The micro-operations of 41_scan_fsm.md R79 to R86, each as the whole next state. -/

namespace Sys2Proof.Machine

/-- Under the host's duties a micro-operation at a reachable state word is one edge under the phase rule (R78). -/
theorem exec_microOp_eq_next {s : State} {p : Phase} {r c : Idx} (hd : s.HostDuties) (hcode : s.CodeAssigned)
    (hword : reachableWord p r c = true) :
    exec (microOp p r c) s = .next (phaseRule s.now (s.atWord p r c).beginEdge) := by
  rw [exec_microOp]
  exact edge_at_word phaseRule hd hword hcode

/-- The state in which the phase rule of a micro-operation starts. -/
theorem beginEdge_atWord (s : State) (p : Phase) (r c : Idx) :
    (s.atWord p r c).beginEdge =
      { s with phase := p, r := r, c := c, doneQ := false, pins := s.pins.tail, cycle := s.cycle + 1 } := rfl

/-- Settles O16: a present row whose drive fails, or the merged branch of all other cases, at row 3 and before it. -/
theorem initDrivesPresentRowLow : Obligations.InitDrivesPresentRowLow := by
  intro s r hd hcode
  refine (exec_microOp_eq_next (p := .init) hd hcode rfl).trans (congrArg _ ?_)
  change initRule s.now (s.atWord .init r 0#2).beginEdge = _
  by_cases hfail : hasRow s.cfg r = true ∧ s.now.drvErr = true
  · obtain ⟨hrow, herr⟩ := hfail
    simp [beginEdge_atWord, initRule, driveRow_of_fail, hrow, herr, codeInitLowFail]
  · have hok : hasRow s.cfg r = true → s.now.drvErr = false := by simpa using hfail
    rw [if_neg hfail, initRule_of_no_failure (s := (s.atWord .init r 0#2).beginEdge) hok]
    obtain rfl | hr := eq_or_ne r 3#2
    · rfl
    · cases hrow : hasRow s.cfg r <;> simp [beginEdge_atWord, initAdvance, hr, hrow]

/-- Settles O17: the two branches of R80. -/
theorem idleActsOnReadOnly : Obligations.IdleActsOnReadOnly := by
  intro s hd hcode
  refine (exec_microOp_eq_next (p := .idle) hd hcode rfl).trans (congrArg _ ?_)
  change idleRule s.now (s.atWord .idle 0#2 0#2).beginEdge = _
  obtain ⟨hcmd, h⟩ | ⟨hcmd, h⟩ := idleRule_cases s.now (s.atWord .idle 0#2 0#2).beginEdge
  · rw [h, if_pos hcmd]
    rfl
  · rw [h, if_neg hcmd]
    rfl

/-- Settles O18: an absent row, a failed drive, a successful one. -/
theorem rowSkipsOrAsserts : Obligations.RowSkipsOrAsserts := by
  intro s r hd hcode
  refine (exec_microOp_eq_next (p := .row) hd hcode rfl).trans (congrArg _ ?_)
  change rowRule s.now (s.atWord .row r 0#2).beginEdge = _
  cases hrow : hasRow s.cfg r with
  | false =>
    rw [rowRule_of_absent (s := (s.atWord .row r 0#2).beginEdge) hrow]
    by_cases hr : r = 3#2 <;> simp [beginEdge_atWord, hr]
  | true =>
    cases herr : s.now.drvErr with
    | true => simp [beginEdge_atWord, rowRule, driveRow_of_fail, raiseHwIoFail, hrow, herr, codeRowHighFail]
    | false =>
      rw [rowRule_of_ok (s := (s.atWord .row r 0#2).beginEdge) hrow herr]
      simp [beginEdge_atWord, driveRow_of_ok, herr]

/-- Settles O19: the two branches of R82. -/
theorem settleCountsDown : Obligations.SettleCountsDown := by
  intro s r hd hcode
  refine (exec_microOp_eq_next (p := .settle) hd hcode rfl).trans (congrArg _ ?_)
  change settleRule s.now (s.atWord .settle r 0#2).beginEdge = _
  by_cases hcnt : s.cnt = 0 <;> simp [beginEdge_atWord, settleRule, hcnt]

/-- The fatal test of R103, bit by bit. -/
theorem fatalColumn_iff (cfg : Cfg) (i : Inputs) (c : Idx) :
    fatalColumn cfg i c = true ↔
      cfg.colPresent.getLsbD c.toNat = true ∧ cfg.colFatalEn = true ∧ i.colFatal.getLsbD c.toNat = true := by
  simp [fatalColumn, hasCol, lineBit, and_assoc]

/-- The test for a pressed key of R83, bit by bit. -/
theorem pressedColumn_iff (cfg : Cfg) (i : Inputs) (c : Idx) :
    pressedColumn cfg i c = true ↔
      cfg.colPresent.getLsbD c.toNat = true ∧ i.colErr.getLsbD c.toNat = false ∧
        i.colFatal.getLsbD c.toNat = false ∧ i.colIn.getLsbD c.toNat = true := by
  simp [pressedColumn, hasCol, lineBit, and_assoc]

/-- Settles O20: the enabled fatal column first, then a column that is pressed or not, at column 3 and before it. -/
theorem sampleAccumulatesOneColumn : Obligations.SampleAccumulatesOneColumn := by
  intro s r c hd hcode
  refine (exec_microOp_eq_next (p := .sample) hd hcode rfl).trans (congrArg _ ?_)
  change sampleRule s.now (s.atWord .sample r c).beginEdge = _
  simp only [← fatalColumn_iff, ← pressedColumn_iff]
  cases hfatal : fatalColumn s.cfg s.now c with
  | true => simp [beginEdge_atWord, sampleRule, hfatal]
  | false =>
    rw [sampleRule_of_ok (s := (s.atWord .sample r c).beginEdge) hfatal]
    obtain rfl | hc := eq_or_ne c 3#2
    · cases hkey : pressedColumn s.cfg s.now 3#2 <;> simp [beginEdge_atWord, sampleAdvance, keyMask, oneHot, hkey]
    · cases hkey : pressedColumn s.cfg s.now c <;> simp [beginEdge_atWord, sampleAdvance, keyMask, oneHot, hkey, hc]

/-- Settles O21: a failed drive first, then a pending fatal column, then row 3 and the rows before it. -/
theorem deassertDrivesLowThenReports : Obligations.DeassertDrivesLowThenReports := by
  intro s r hd hcode
  refine (exec_microOp_eq_next (p := .deassert) hd hcode rfl).trans (congrArg _ ?_)
  change deassertRule s.now (s.atWord .deassert r 0#2).beginEdge = _
  cases herr : s.now.drvErr with
  | true => simp [beginEdge_atWord, deassertRule, driveRow_of_fail, raiseHwIoFail, herr, codeRowLowFail]
  | false =>
    cases hpend : s.pendFatal with
    | true => simp [beginEdge_atWord, deassertRule, driveRow_of_ok, raiseHwIoFail, herr, hpend, codeColFatal]
    | false =>
      rw [deassertRule_of_ok (s := (s.atWord .deassert r 0#2).beginEdge) herr hpend]
      by_cases hr : r = 3#2 <;> simp [beginEdge_atWord, driveRow_of_ok, herr, hpend, hr]

/-- Settles O22: the writes of `finishRule` at the one reachable FINISH word. -/
theorem finishPublishes : Obligations.FinishPublishes :=
  fun _ hd hcode => exec_microOp_eq_next (p := .finish) hd hcode rfl

/-- Settles O23: `initFailedRule` writes nothing, so the edge ends as it began. -/
theorem initFailedHolds : Obligations.InitFailedHolds :=
  fun _ hd hcode => exec_microOp_eq_next (p := .initFailed) hd hcode rfl

end Sys2Proof.Machine
end

section
/-! A step as a whole: its two views (41_scan_fsm.md R78), that it has a successor under the host's duties, the transition
relation of R90, and what SAMPLE reads (R83, R93). -/

namespace Sys2Proof.Machine

/-- Settles O6: RESET has no test, and every other edge passes all of them. -/
theorem everyEdgeHasASuccessor : Obligations.EveryEdgeHasASuccessor := by
  intro s h
  cases hrst : s.now.rst with
  | true => exact ⟨_, step_of_reset hrst⟩
  | false =>
    obtain ⟨hd, hword, hcode⟩ := h.resolve_left (by simp [hrst])
    exact ⟨_, (step_of_no_reset hrst).trans (edge_of_duties _ hd hword hcode)⟩

/-- A command as the host presents it, with `rst = 0`, is the edge under the phase rule as soon as its rule is what IDLE
does with the ports; outside IDLE it is ignored (40_commands.md R73, R77). -/
theorem edge_command_eq_step {rule : Inputs → State → State} {s : State} {cmd : BitVec 2} {len : Nat}
    (hrst : s.now.rst = false)
    (hidle : rule { s.now with rst := false, cmd := cmd, settleLen := len } s.beginEdge = idleRule s.now s.beginEdge) :
    edge (commandRule rule) (s.present false cmd len) = step s := by
  rw [step_of_no_reset hrst]
  by_cases hp : s.phase = .idle
  · have hphase : phaseRule s.now s.beginEdge = idleRule s.now s.beginEdge := by simp [phaseRule, hp]
    refine edge_agree rfl rfl rfl rfl rfl rfl rfl ?_
    rw [now_present, beginEdge_present, commandRule_in_idle rule _ (s := s.beginEdge) hp, hidle, hphase]
  · rw [edge_command_elsewhere rule cmd len hp, exec_microOp_self]

/-- The settle count on the port is below `2^SW`, so presenting it again changes nothing (30_encoding.md R68). -/
theorem readRule_settle (i : Inputs) (rst : Bool) (cmd : BitVec 2) (s : State) :
    readRule { i with rst := rst, cmd := cmd, settleLen := i.settle s.sw } s = readRule i s := by
  simp [readRule, Inputs.settle]

/-- IDLE writes nothing under a command that is not READ (R80). -/
theorem idleRule_of_not_read {i : Inputs} {s : State} (h : i.cmd ≠ 0b01#2) : idleRule i s = s := by
  obtain ⟨hread, -⟩ | ⟨-, hwait⟩ := idleRule_cases i s
  · exact absurd hread h
  · exact hwait

/-- The command on the ports, run as an instruction, is the step (30_encoding.md R59, R78). -/
theorem exec_hostInstr (s : State) : exec s.hostInstr s = step s := by
  unfold State.hostInstr
  cases hrst : s.now.rst with
  | true => exact (step_of_reset hrst).symm
  | false =>
    have hcmd : s.now.cmd = 0b00#2 ∨ s.now.cmd = 0b01#2 ∨ s.now.cmd = 0b10#2 ∨ s.now.cmd = 0b11#2 := by
      generalize s.now.cmd = cmd
      revert cmd
      decide
    obtain h | h | h | h := hcmd <;> rw [h]
    · exact edge_command_eq_step hrst (idleRule_of_not_read (by simp [h])).symm
    · exact edge_command_eq_step hrst ((readRule_settle _ _ _ s.beginEdge).trans (by simp [idleRule, h]))
    · exact edge_command_eq_step hrst (idleRule_of_not_read (by simp [h])).symm
    · exact edge_command_eq_step hrst (idleRule_of_not_read (by simp [h])).symm

/-- Settles O5: each word decodes to the instruction of its fields, and that instruction is the step. -/
theorem stepRunsTheDecodedInstruction : Obligations.StepRunsTheDecodedInstruction := by
  refine fun s i => ⟨fun hdecode => ?host, fun hrst hdecode => ?state⟩
  case host =>
    have hi : s.hostInstr = i := by
      simpa [State.hostWord, State.hostInstr, Inputs.settle, decode_hostBits] using hdecode
    rw [← hi, exec_hostInstr]
  case state =>
    have hi : microOp s.phase s.r s.c = i := by simpa [State.stateWord, decode_stateBits] using hdecode
    rw [← hi, exec_microOp_self, step_of_no_reset hrst]

/-- Settles O30: one row of the table for each branch of the edge; the reachable word gives `c = 0` outside SAMPLE and
`r = 0` where the FSM waits. -/
theorem transitionTableIsComplete : Obligations.TransitionTableIsComplete := by
  intro s t hword h
  cases hrst : s.now.rst with
  | true =>
    obtain ⟨-, rfl⟩ | ⟨hrst', -⟩ := step_cases h
    · simp
    · simp [hrst] at hrst'
  | false =>
    have hcol := col_of_wordReachable hword
    unfold State.WordReachable at hword
    cases phaseEdge_of_step h hrst with
    | initSkip hp hrow =>
      by_cases hr : s.r = 3#2
      · rw [hr] at hrow
        simp [hp, hrow, hr, hcol]
      · simp [hp, hrow, hr, hcol]
    | initLow hp hrow herr => by_cases hr : s.r = 3#2 <;> simp [hp, hrow, herr, hr, hcol]
    | initFail hp hrow herr | rowFail hp hrow herr | rowHigh hp hrow herr => simp [hp, hrow, herr, hcol]
    | read hp hcmd => simp [hp, hcmd]
    | rowSkipLast hp hrow hr =>
      rw [hr] at hrow
      simp [hp, hrow, hr, hcol]
    | rowSkip hp hrow hr => simp [hp, hrow, hr, hcol]
    | settleEnd hp hcnt | settleCount hp hcnt => simp [hp, hcnt, hcol]
    | sampleFatal hp hfatal => simp [hp, hfatal]
    | samplePressed hp hfatal | sampleReleased hp hfatal => by_cases hc : s.c = 3#2 <;> simp [hp, hfatal, hc]
    | lowFail hp herr => simp [hp, herr]
    | lowFatal hp herr hpend => simp [hp, herr, hpend]
    | lowLast hp herr hpend hr | lowNext hp herr hpend hr => simp [hp, herr, hpend, hr, hcol]
    | publish hp => simp [hp, hcol]
    | wait hp hcmd =>
      obtain ⟨hr, hc⟩ : s.r = 0#2 ∧ s.c = 0#2 := by simpa [hp, reachableWord] using hword
      simp [hp, hcmd, hr, hc]
    | failed hp =>
      obtain ⟨hr, hc⟩ : s.r = 0#2 ∧ s.c = 0#2 := by simpa [hp, reachableWord] using hword
      simp [hp, hr, hc]

/-! ### What SAMPLE reads -/

/-- SAMPLE reads the inputs through the two tests of its column (R83). -/
theorem sampleRule_reads {i j : Inputs} {s : State} (hfatal : fatalColumn s.cfg i s.c = fatalColumn s.cfg j s.c)
    (hkey : pressedColumn s.cfg i s.c = pressedColumn s.cfg j s.c) : sampleRule i s = sampleRule j s := by
  simp only [sampleRule, hfatal, hkey]

/-- Two edges in SAMPLE agree where the two tests of the column do. -/
theorem step_agree_in_sample {s : State} {i j : Inputs} {rest : List Inputs} (hp : s.phase = .sample)
    (hi : i.rst = false) (hj : j.rst = false) (hcfg : i.cfg = j.cfg)
    (hfatal : fatalColumn s.cfg i s.c = fatalColumn s.cfg j s.c)
    (hkey : pressedColumn s.cfg i s.c = pressedColumn s.cfg j s.c) :
    step { s with pins := i :: rest } = step { s with pins := j :: rest } := by
  have hrule : ∀ k, phaseRule k { s with pins := i :: rest }.beginEdge =
      sampleRule k { s with pins := i :: rest }.beginEdge := fun k => by simp [phaseRule, hp]
  refine step_agree_of_phaseRule hi hj hcfg ?_
  rw [hrule, hrule]
  exact sampleRule_reads hfatal hkey

/-- Settles O41: the two tests read bit `c` of the column inputs. -/
theorem otherColumnsAreNotRead : Obligations.OtherColumnsAreNotRead := by
  intro s i j rest hp hi hj hcfg hin herr hfatal
  refine step_agree_in_sample hp hi hj hcfg ?_ ?_
  · simp only [fatalColumn, hfatal]
  · simp only [pressedColumn, hin, herr, hfatal]

theorem fatalColumn_of_absent {cfg : Cfg} {c : Idx} (h : hasCol cfg c = false) (i : Inputs) :
    fatalColumn cfg i c = false := by simp [fatalColumn, h]

theorem pressedColumn_of_absent {cfg : Cfg} {c : Idx} (h : hasCol cfg c = false) (i : Inputs) :
    pressedColumn cfg i c = false := by simp [pressedColumn, h]

/-- Settles O42: at an absent column both tests are false whatever the inputs, so SAMPLE only advances. -/
theorem absentColumnIsNeutral : Obligations.AbsentColumnIsNeutral := by
  intro s i j rest hp hcol hi hj hcfg
  have hfatal := fatalColumn_of_absent hcol
  have hkey := pressedColumn_of_absent hcol
  refine ⟨step_agree_in_sample hp hi hj hcfg (by rw [hfatal, hfatal]) (by rw [hkey, hkey]), fun t h => ?_⟩
  have hrule : phaseRule i { s with pins := i :: rest }.beginEdge =
      sampleAdvance { s with pins := i :: rest }.beginEdge := by
    simp [phaseRule, hp, sampleRule, hfatal, hkey]
  obtain ⟨hrst, -⟩ | ⟨-, -, -, -, ht⟩ := step_cases h
  · simp [hi] at hrst
  · obtain rfl : t = _ := ht.trans hrule
    simp

end Sys2Proof.Machine
end

section
/-! Waiting: runs whose edges write `cnt` and `done_q` at most (41_scan_fsm.md R80, R82, R86). -/

namespace Sys2Proof.Machine

/-- The next edge of a run from `s` under a steady host is the phase rule's, on the listed inputs (41_scan_fsm.md R78). -/
theorem step_of_steady {s u : State} {n k : Nat} (hst : s.Steady n) (hk : k < n) (hpins : u.pins = s.pins.drop k)
    (hcfg : u.cfg = s.cfg) (hl : u.launched = true) (hlayout : layoutWellFormed s.cfg.layout = true)
    (hword : u.WordReachable) (hcode : u.CodeAssigned) :
    u.now = s.inputAt k ∧ u.now.rst = false ∧ step u = .next (phaseRule u.now u.beginEdge) := by
  obtain ⟨hrst, hheld⟩ := hst.inputAt_held hk
  have hnow : u.now = s.inputAt k := now_of_pins_drop hpins (by have := hst.1; omega)
  rw [← hnow] at hrst hheld
  have hduties : u.HostDuties := ⟨hl, by rw [hheld, hcfg], by rw [hcfg]; exact hlayout⟩
  exact ⟨hnow, hrst, (step_of_no_reset hrst).trans (edge_of_duties _ hduties hword hcode)⟩

/-- The inputs of an edge within the list are an element of it. -/
theorem inputAt_mem_take {s : State} {n k : Nat} (hn : n ≤ s.pins.length) (hk : k < n) :
    s.inputAt k ∈ s.pins.take n := by
  have hlisted : s.inputAt k = s.pins[k] := by simp [State.inputAt, hk.trans_le hn]
  rw [hlisted]
  exact List.mem_take_iff_getElem.mpr ⟨k, by omega, rfl⟩

/-- `s` after `k` edges that wrote nothing but `done_q` and the counter. -/
def State.waited (s : State) (k cnt : Nat) : State :=
  { s with cnt := cnt, doneQ := if k = 0 then s.doneQ else false, pins := s.pins.drop k, cycle := s.cycle + k }

theorem waited_zero (s : State) : s.waited 0 s.cnt = s := rfl

/-- One more edge of waiting starts by clearing `done_q`. -/
theorem beginEdge_waited (s : State) (k cnt : Nat) : (s.waited k cnt).beginEdge = s.waited (k + 1) cnt := by
  simp [State.beginEdge, State.waited, Nat.add_assoc]

/-- A phase that only waits, with the counter at `f k` after `k` edges, is left alone for as long as its rule says so. -/
theorem run_waiting {s : State} {p : Phase} {r : Idx} {m n : Nat} {f : Nat → Nat} (hat : s.At p r)
    (hword : reachableWord p r 0#2 = true) (hst : s.Steady n) (hm : m ≤ n) (hf : f 0 = s.cnt)
    (hrule : ∀ k < m, phaseRule (s.inputAt k) (s.waited (k + 1) (f k)) = s.waited (k + 1) (f (k + 1))) :
    run m s = .next (s.waited m (f m)) := by
  obtain ⟨hp, hr, hc, hcode, hl, hlayout⟩ := hat
  induction m with
  | zero => rw [hf, waited_zero, run_zero]
  | succ m ih =>
    have hword' : (s.waited m (f m)).WordReachable := by
      change reachableWord s.phase s.r s.c = true
      rw [hp, hr, hc, hword]
    obtain ⟨hnow, -, hstep⟩ := step_of_steady (u := s.waited m (f m)) hst hm rfl rfl hl hlayout hword' hcode
    rw [hnow, beginEdge_waited, hrule m m.lt_succ_self] at hstep
    exact run_succ_of_last (ih (Nat.le_of_succ_le hm) fun k hk => hrule k (Nat.lt_succ_of_lt hk)) hstep

/-- Settles O48: `initFailedRule` writes nothing, and `done_q` was 0 from the start. -/
theorem initFailedIsTerminal : Obligations.InitFailedIsTerminal := by
  intro s n hat hdone hst
  have hp : s.phase = .initFailed := hat.1
  have hrun := run_waiting (f := fun _ => s.cnt) hat rfl hst le_rfl rfl fun k _ => by
    simp [phaseRule, State.waited, hp]
  simpa [State.waited, hdone] using hrun

/-- Settles O49: IDLE writes nothing under the commands listed. -/
theorem idleHoldsWithoutRead : Obligations.IdleHoldsWithoutRead := by
  intro s n hat hst hcmd
  have hp : s.phase = .idle := hat.1
  refine run_waiting (f := fun _ => s.cnt) hat rfl hst le_rfl rfl fun k hk => ?_
  have hidle : phaseRule (s.inputAt k) (s.waited (k + 1) s.cnt) = idleRule (s.inputAt k) (s.waited (k + 1) s.cnt) := by
    simp [phaseRule, State.waited, hp]
  rw [hidle]
  exact idleRule_of_not_read (hcmd _ (inputAt_mem_take hst.1 hk))

/-- Settles O45: SETTLE waits while its counter runs from `cnt` down to 0, and the edge at 0 goes to SAMPLE. -/
theorem settleLastsOneMoreThanTheCount : Obligations.SettleLastsOneMoreThanTheCount := by
  intro s r hat hst
  have hwait : ∀ m ≤ s.cnt, run m s = .next (s.waited m (s.cnt - m)) := fun m hm =>
    run_waiting (f := fun k => s.cnt - k) hat rfl hst (by omega) rfl fun k hk => by
      have hcnt : s.cnt - k ≠ 0 := by omega
      simp [phaseRule, settleRule, State.waited, hat.1, hcnt, Nat.sub_sub]
  obtain ⟨hp, hr, hc, hcode, hl, hlayout⟩ := hat
  refine ⟨fun k hk => ⟨_, hwait k hk, hp, rfl⟩, ?_⟩
  have hword : (s.waited s.cnt 0).WordReachable := by
    change reachableWord s.phase s.r s.c = true
    simp [hp, hc, reachableWord]
  obtain ⟨-, -, hstep⟩ := step_of_steady (u := s.waited s.cnt 0) hst s.cnt.lt_succ_self rfl rfl hl hlayout hword hcode
  have hlast := hwait s.cnt le_rfl
  rw [Nat.sub_self] at hlast
  have hrule : phaseRule (s.waited s.cnt 0).now (s.waited s.cnt 0).beginEdge =
      { s.waited (s.cnt + 1) 0 with phase := .sample } := by
    rw [beginEdge_waited]
    simp [phaseRule, settleRule, State.waited, hp]
  rw [hrule] at hstep
  exact ⟨_, run_succ_of_last hlast hstep, rfl, hr, hc, rfl, rfl⟩

end Sys2Proof.Machine
end

section
/-! The timetable of a scan (41_scan_fsm.md R99, R100): every edge takes it at least one entry further, and without a
failure exactly one. So every scan ends, and one without failures is on time at each of its edges. -/

namespace Sys2Proof.Machine

/-! ### The timetable -/

/-- The ROW edge of the next row follows the edges of a row (R99). -/
theorem rowEdge_succ (cfg : Cfg) (len : Nat) {r : Idx} (hr : r ≠ 3#2) :
    rowEdge cfg len (r + 1#2) = rowEdge cfg len r + rowCycles cfg len r := by
  have hnext : (r + 1#2).toNat = r.toNat + 1 := by bv_omega
  rw [rowEdge_add_rowCycles, rowEdge, hnext]
  rfl

/-- FINISH follows the edges of row 3 (R100). -/
theorem finishEdge_eq_rowEdge (cfg : Cfg) (len : Nat) :
    finishEdge cfg len = rowEdge cfg len 3#2 + rowCycles cfg len 3#2 := by
  rw [rowEdge_add_rowCycles, finishEdge_eq_sum]
  rfl

/-- The edges of a row come before the FINISH edge. -/
theorem rowEdge_add_rowCycles_le_finishEdge (cfg : Cfg) (len : Nat) (r : Idx) :
    rowEdge cfg len r + rowCycles cfg len r ≤ finishEdge cfg len := by
  have hmono := sum_rowCycles_mono cfg len (Nat.succ_le_of_lt r.isLt)
  rw [rowEdge_add_rowCycles, finishEdge_eq_sum]
  exact Nat.add_le_add_left hmono 1

/-- A later row starts after the edges of an earlier one. -/
theorem rowEdge_add_rowCycles_le_rowEdge (cfg : Cfg) (len : Nat) {r r' : Idx} (h : r.toNat < r'.toNat) :
    rowEdge cfg len r + rowCycles cfg len r ≤ rowEdge cfg len r' := by
  rw [rowEdge_add_rowCycles]
  exact Nat.add_le_add_left (sum_rowCycles_mono cfg len (Nat.succ_le_of_lt h)) 1

/-- The bound of R100: four present rows at the largest settle count. -/
theorem finishEdge_le_bound (cfg : Cfg) {len sw : Nat} (hlen : len < 2 ^ sw) :
    finishEdge cfg len ≤ 4 * (2 ^ sw - 1) + 29 := by
  have hrows : rowCount cfg ≤ 4 := List.length_filter_le _ idxs
  unfold finishEdge
  interval_cases rowCount cfg <;> omega

/-- The block is in a phase that a scan goes through after its acceptance. -/
abbrev State.Scans (u : State) : Prop :=
  u.phase = .row ∨ u.phase = .settle ∨ u.phase = .sample ∨ u.phase = .deassert ∨ u.phase = .finish

/-- The edge of R99 and R100, counted from the one that accepts READ, at which a scan without failures is at this state
word and counter. -/
def State.scanEdge (u : State) : Nat :=
  match u.phase with
  | .row => rowEdge u.cfg u.lenQ u.r
  | .settle => rowEdge u.cfg u.lenQ u.r + 1 + (u.lenQ - u.cnt)
  | .sample => sampleEdge u.cfg u.lenQ u.r u.c
  | .deassert => deassertEdge u.cfg u.lenQ u.r
  | .finish => finishEdge u.cfg u.lenQ
  | .init | .idle | .initFailed => 0

/-- `t` shows the end of a scan: a new mask or an error code, and with the error code the mask that stood in `s`. -/
abbrev State.ScanEndsIn (s t : State) : Prop :=
  t.phase = .idle ∧ t.doneQ = true ∧ (t.validQ = true ↔ t.errCodeQ = 0b000#3) ∧ (t.validQ = false → t.maskQ = s.maskQ)

/-! ### One edge of a scan -/

section
variable {u t : State}

/-- The end of a scan: it publishes, or it aborts with an error code and the old mask (60_exceptions.md R104). -/
theorem PhaseEdge.scan_ends (e : PhaseEdge u t) (hscan : u.Scans) (hvalid : u.validQ = false)
    (hcode : u.errCodeQ = 0b000#3) (hidle : t.phase = .idle) : u.ScanEndsIn t := by
  refine ⟨hidle, ?_⟩
  cases e with
  | rowFail => simp [hvalid, codeRowHighFail]
  | lowFail => simp [hvalid, codeRowLowFail]
  | lowFatal => simp [hvalid, codeColFatal]
  | publish => simp [hcode]
  | initSkip hp | initFail hp | initLow hp | read hp | wait hp | failed hp => simp [hp, State.Scans] at hscan
  | samplePressed hp | sampleReleased hp => by_cases hc : u.c = 3#2 <;> simp [hp, hc] at hidle
  | rowSkip hp | settleCount hp => simp [hp] at hidle
  | _ => simp at hidle

/-- An edge that does not end the scan stays in it and leaves the parameters, the latch and the mask alone. -/
theorem PhaseEdge.scan_goes_on (e : PhaseEdge u t) (hscan : u.Scans) (hidle : t.phase ≠ .idle) :
    t.Scans ∧ t.launched = u.launched ∧ t.cfg = u.cfg ∧ t.pins = u.pins.tail ∧ t.lenQ = u.lenQ ∧
      t.maskQ = u.maskQ := by
  cases e with
  | rowFail | lowFail | lowFatal | publish => simp at hidle
  | initSkip hp | initFail hp | initLow hp | read hp | wait hp | failed hp => simp [hp, State.Scans] at hscan
  | samplePressed hp | sampleReleased hp => by_cases hc : u.c = 3#2 <;> simp [hp, hc, State.Scans]
  | _ => simp [State.Scans, ‹u.phase = _›]

/-- SETTLE counts down from the latch. -/
theorem PhaseEdge.keeps_counter_le_latch (e : PhaseEdge u t) (h : u.phase = .settle → u.cnt ≤ u.lenQ) :
    t.phase = .settle → t.cnt ≤ t.lenQ := by
  cases e with
  | rowHigh => simp
  | settleCount hp => exact fun _ => (Nat.sub_le u.cnt 1).trans (h hp)
  | initSkip hp | initLow hp => by_cases hr : u.r = 3#2 <;> simp [hp, hr]
  | samplePressed hp | sampleReleased hp => by_cases hc : u.c = 3#2 <;> simp [hp, hc]
  | _ => simp [‹u.phase = _›]

/-- Without an enabled fatal column an edge that does not end the scan takes it to the next entry of the timetable. -/
theorem PhaseEdge.scanEdge_succ (e : PhaseEdge u t) (hscan : u.Scans) (hword : u.WordReachable)
    (hrows : u.RowInScan) (hcnt : u.phase = .settle → u.cnt ≤ u.lenQ)
    (hfatal : u.phase = .sample → fatalColumn u.cfg u.now u.c = false) (hidle : t.phase ≠ .idle) :
    t.scanEdge = u.scanEdge + 1 := by
  have hcol := col_of_wordReachable hword
  have hpresent : u.phase = .deassert → hasRow u.cfg u.r = true := fun hp => (hrows.1 (.inr (.inr hp))).1
  cases e with
  | rowFail | lowFail | lowFatal | publish => simp at hidle
  | initSkip hp | initFail hp | initLow hp | read hp | wait hp | failed hp => simp [hp, State.Scans] at hscan
  | rowSkipLast hp hrow hr =>
    rw [hr] at hrow
    simp [State.scanEdge, hp, hr, finishEdge_eq_rowEdge, rowCycles, hrow]
  | rowSkip hp hrow hr => simp [State.scanEdge, hp, rowEdge_succ _ _ hr, rowCycles, hrow]
  | rowHigh hp => simp [State.scanEdge, hp]
  | settleEnd hp hzero => simp [State.scanEdge, hp, hzero, sampleEdge, hcol, Nat.add_right_comm]
  | settleCount hp hne =>
    have hle := hcnt hp
    have hdown : u.lenQ - (u.cnt - 1) = u.lenQ - u.cnt + 1 := by omega
    simp [State.scanEdge, hp, hdown, Nat.add_assoc]
  | sampleFatal hp hyes => simp [hfatal hp] at hyes
  | samplePressed hp | sampleReleased hp =>
    by_cases hc : u.c = 3#2
    · simp [State.scanEdge, hp, hc, sampleEdge, deassertEdge]
    · have hnext : (u.c + 1#2).toNat = u.c.toNat + 1 := by bv_omega
      simp [State.scanEdge, hp, hc, sampleEdge, hnext, Nat.add_assoc]
  | lowLast hp _ _ hr =>
    have hrow := hpresent hp
    rw [hr] at hrow
    simp [State.scanEdge, hp, hr, deassertEdge, finishEdge_eq_rowEdge, rowCycles, hrow, Nat.add_assoc]
  | lowNext hp _ _ hr =>
    simp [State.scanEdge, hp, deassertEdge, rowEdge_succ _ _ hr, rowCycles, hpresent hp, Nat.add_assoc]

/-- With an enabled fatal column the scan skips to the DEASSERT entry: every edge that does not end the scan takes it
further in the timetable. -/
theorem PhaseEdge.scanEdge_lt (e : PhaseEdge u t) (hscan : u.Scans) (hword : u.WordReachable) (hrows : u.RowInScan)
    (hcnt : u.phase = .settle → u.cnt ≤ u.lenQ) (hidle : t.phase ≠ .idle) : u.scanEdge < t.scanEdge := by
  by_cases hfatal : u.phase = .sample → fatalColumn u.cfg u.now u.c = false
  · have hsucc := e.scanEdge_succ hscan hword hrows hcnt hfatal hidle
    omega
  · obtain ⟨hp, hyes⟩ : u.phase = .sample ∧ fatalColumn u.cfg u.now u.c = true := by simpa using hfatal
    cases e with
    | sampleFatal =>
      have hlt : sampleEdge u.cfg u.lenQ u.r u.c < deassertEdge u.cfg u.lenQ u.r := by
        have hc := u.c.isLt
        unfold sampleEdge deassertEdge
        omega
      simpa [State.scanEdge, hp] using hlt
    | samplePressed _ hno | sampleReleased _ hno => simp [hyes] at hno
    | _ => simp [‹u.phase = _›] at hp

/-- The timetable ends with FINISH. -/
theorem scanEdge_le_finishEdge (hrows : u.RowInScan) : u.scanEdge ≤ finishEdge u.cfg u.lenQ := by
  have hle := rowEdge_add_rowCycles_le_finishEdge u.cfg u.lenQ u.r
  have hpresent : Phase.rowHigh u.phase → rowCycles u.cfg u.lenQ u.r = u.lenQ + 7 := fun hp => if_pos (hrows.1 hp).1
  have hc := u.c.isLt
  unfold State.scanEdge
  cases hp : u.phase with
  | row => exact (Nat.le_add_right _ _).trans hle
  | settle =>
    have hcycles := hpresent (.inl hp)
    simp only
    omega
  | sample =>
    have hcycles := hpresent (.inr (.inl hp))
    simp only [sampleEdge]
    omega
  | deassert =>
    have hcycles := hpresent (.inr (.inr hp))
    simp only [deassertEdge]
    omega
  | finish => exact le_rfl
  | init | idle | initFailed => exact Nat.zero_le _

end

/-! ### A scan under any environment -/

/-- `u` stands `k` edges after the start of a scan with settle count `len` in `s`, and the scan goes on; what the
environment does is left open. -/
structure InScan (s : State) (len k : Nat) (u : State) : Prop where
  ran : run k s = .next u
  scans : u.Scans
  word : u.WordReachable
  status : u.StatusFitsPhase
  rowInScan : u.RowInScan
  counter : u.phase = .settle → u.cnt ≤ u.lenQ
  launched : u.launched = true
  cfg : u.cfg = s.cfg
  pins : u.pins = s.pins.drop k
  latch : u.lenQ = len
  mask : u.maskQ = s.maskQ

section
variable {s u t : State} {len N k : Nat}

/-- A scan begins with the edge after READ's, at ROW 0 (R75, R99). -/
theorem exists_inScan_of_read (hat : s.At .idle 0#2) (hlen : len = s.now.settleLen % 2 ^ s.sw)
    (hcmd : s.now.cmd = 0b01#2) (hst : s.Steady N) (hN : 0 < N) :
    ∃ u, InScan s len 1 u ∧ u.scanEdge = 1 ∧ u.pendFatal = false ∧ (s.OnlyScannedRowHigh → u.OnlyScannedRowHigh) := by
  obtain ⟨u, hu⟩ := scanning_of_read hat hlen hcmd hst hN
  have hp : u.phase = .row := hu.phase
  have hr : u.r = 0#2 := hu.row
  have hc : u.c = 0#2 := hu.col
  refine ⟨u, ⟨hu.ran, .inl hp, ?word, ?status, ?rows, ?counter, hu.launched, hu.cfg, hu.pins, hu.latch, hu.mask⟩, ?edge,
    hu.pend, hu.rows⟩
  case word => simp [State.WordReachable, hp, hc, reachableWord]
  case status => exact statusFitsPhase_of_no_status ⟨hu.done, hu.valid, hu.errCode⟩ (by simp [hp]) fun _ => hu.pend
  case rows => simp [State.RowInScan, Phase.rowHigh, hp]
  case counter => simp [hp]
  case edge => simp [State.scanEdge, hp, hr, rowEdge]

namespace InScan

theorem busy (h : InScan s len k u) : u.busy = true := by
  obtain hp | hp | hp | hp | hp := h.scans <;> simp [State.busy, hp]

/-- What the block shows during a scan (10_state.md R31, R32, R34, 41_scan_fsm.md R98). -/
theorem shows (h : InScan s len k u) :
    run k s = .next u ∧ u.busy = true ∧ u.doneQ = false ∧ u.validQ = false ∧ u.maskQ = s.maskQ := by
  obtain ⟨hdone, hvalid, -⟩ := no_status_of_busy h.status h.busy
  exact ⟨h.ran, h.busy, hdone, hvalid, h.mask⟩

/-- The next edge reads the listed inputs and takes one of the branches of the phase rule; where it does not end the scan,
the scan goes on. -/
theorem next (h : InScan s len k u) (hlayout : layoutWellFormed s.cfg.layout = true) (hst : s.Steady N) (hk : k < N) :
    u.now = s.inputAt k ∧ ∃ t, step u = .next t ∧ run (k + 1) s = .next t ∧ PhaseEdge u t ∧
      (t.phase ≠ .idle → InScan s len (k + 1) t) := by
  obtain ⟨-, -, hcode⟩ := no_status_of_busy h.status h.busy
  obtain ⟨hnow, hrst, hstep⟩ :=
    step_of_steady hst hk h.pins h.cfg h.launched hlayout h.word (by simp [State.CodeAssigned, hcode])
  have e := phaseEdge_of_step hstep hrst
  have hrun := run_succ_of_last h.ran hstep
  refine ⟨hnow, _, hstep, hrun, e, fun hidle => ?_⟩
  obtain ⟨hscans, hlaunched, hcfg, hpins, hlatch, hmask⟩ := e.scan_goes_on h.scans hidle
  exact ⟨hrun, hscans, e.keeps_wordReachable h.word, e.keeps_statusFitsPhase h.status, e.keeps_rowInScan h.rowInScan,
    e.keeps_counter_le_latch h.counter, hlaunched.trans h.launched, hcfg.trans h.cfg, by simp [hpins, h.pins],
    hlatch.trans h.latch, hmask.trans h.mask⟩

theorem scanEdge_le (h : InScan s len k u) : u.scanEdge ≤ finishEdge s.cfg len := by
  have hle := scanEdge_le_finishEdge h.rowInScan
  rwa [h.cfg, h.latch] at hle

/-- A scan ends after no more edges than the timetable has left. -/
theorem ends (hlayout : layoutWellFormed s.cfg.layout = true) (hst : s.Steady N) :
    ∀ {d k : Nat} {u : State}, InScan s len k u → finishEdge s.cfg len < u.scanEdge + d → k + d ≤ N →
    ∃ n t, k < n ∧ n ≤ k + d ∧ run n s = .next t ∧ s.ScanEndsIn t ∧ ∀ j, k ≤ j → j < n → ∃ v, InScan s len j v
  | 0, k, u, h, hd, _ => absurd h.scanEdge_le (Nat.not_le.mpr hd)
  | d + 1, k, u, h, hd, hN => by
    obtain ⟨-, t, -, hrun, e, hnext⟩ := h.next hlayout hst (by omega)
    by_cases hidle : t.phase = .idle
    · obtain ⟨-, hvalid, hcode⟩ := no_status_of_busy h.status h.busy
      have hends := e.scan_ends h.scans hvalid hcode hidle
      rw [State.ScanEndsIn, h.mask] at hends
      refine ⟨k + 1, t, by omega, by omega, hrun, hends, fun j hkj hj => ?_⟩
      obtain rfl : j = k := by omega
      exact ⟨u, h⟩
    · have ht := hnext hidle
      have hlt := e.scanEdge_lt h.scans h.word h.rowInScan h.counter hidle
      obtain ⟨n, v, hkn, hn, hran, hends, hall⟩ := ends hlayout hst (d := d) ht (by omega) (by omega)
      refine ⟨n, v, by omega, by omega, hran, hends, fun j hkj hj => ?_⟩
      obtain rfl | hlater := Nat.eq_or_lt_of_le hkj
      · exact ⟨u, h⟩
      · exact hall j hlater hj

end InScan

/-- Settles O52: the scan starts at entry 1 of a timetable that ends at `finishEdge`, within the bound of R100. -/
theorem everyScanEndsWithinTheBound : Obligations.EveryScanEndsWithinTheBound := by
  intro s hat hcmd hst
  have ⟨_, _, _, _, _, hlayout⟩ := hat
  obtain ⟨u, hu, hedge, -, -⟩ := exists_inScan_of_read hat rfl hcmd hst (Nat.succ_pos _)
  have hbound := finishEdge_le_bound s.cfg (Nat.mod_lt s.now.settleLen (Nat.two_pow_pos s.sw))
  obtain ⟨n, t, hn1, hn, hran, ⟨hphase, hdone, hiff, hmask⟩, hall⟩ :=
    InScan.ends hlayout hst (d := 4 * (2 ^ s.sw - 1) + 29) hu (by omega) (by omega)
  refine ⟨n, t, by omega, by omega, hran, hphase, hdone, hiff, hmask, fun k hk hkn => ?_⟩
  obtain ⟨v, hv⟩ := hall k hk hkn
  exact ⟨v, hv.shows⟩

end

end Sys2Proof.Machine
end

section
/-! A scan without failures: on time at each of its edges, and published at the edge of R100 (41_scan_fsm.md R91, R92, R95,
R99). -/

namespace Sys2Proof.Machine

/-- A scan that has met no failure stands at its edge of the timetable. -/
structure OnTime (s : State) (len k : Nat) (u : State) : Prop extends InScan s len k u where
  edge : u.scanEdge = k
  pend : u.pendFatal = false
  rows : s.OnlyScannedRowHigh → u.OnlyScannedRowHigh

section
variable {s u t : State} {len N k : Nat}

/-- A scan edge at which no drive fails and no fatal column is seen or pending does not end the scan before FINISH. -/
theorem PhaseEdge.stays_in_scan (e : PhaseEdge u t) (hscan : u.Scans) (hfinish : u.phase ≠ .finish)
    (hpend : u.pendFatal = false) (hhigh : u.phase = .row → hasRow u.cfg u.r = true → u.now.drvErr = false)
    (hlow : u.phase = .deassert → u.now.drvErr = false) : t.phase ≠ .idle := by
  cases e with
  | rowFail hp hrow herr => simp [hhigh hp hrow] at herr
  | lowFail hp herr => simp [hlow hp] at herr
  | lowFatal _ _ hyes => simp [hpend] at hyes
  | publish hp => exact absurd hp hfinish
  | initSkip hp | initFail hp | initLow hp | read hp | wait hp | failed hp => simp [hp, State.Scans] at hscan
  | samplePressed hp | sampleReleased hp => by_cases hc : u.c = 3#2 <;> simp [hp, hc]
  | rowSkip hp | settleCount hp => simp [hp]
  | _ => simp

namespace OnTime

/-- On time and without failures, a scan is on time at its next edge (R99). -/
theorem succ (h : OnTime s len k u) (hlayout : layoutWellFormed s.cfg.layout = true) (hst : s.Steady N)
    (hk : k < finishEdge s.cfg len) (hN : k < N) (hok : ∀ r ∈ idxs, s.RowSucceeds len r) :
    ∃ t, OnTime s len (k + 1) t := by
  obtain ⟨hnow, t, hstep, -, e, hnext⟩ := h.next hlayout hst hN
  have hscan := h.scans
  have hedge := h.edge
  have hrows := h.rowInScan.1
  have hfinish : u.phase ≠ .finish := by
    intro hp
    simp only [State.scanEdge, hp, h.cfg, h.latch] at hedge
    omega
  have hsucceeds : hasRow u.cfg u.r = true → _ := fun hrow => hok u.r (mem_idxs u.r) (h.cfg ▸ hrow)
  have hhigh : u.phase = .row → hasRow u.cfg u.r = true → u.now.drvErr = false := by
    intro hp hrow
    obtain ⟨hok, -, -⟩ := hsucceeds hrow
    simp only [State.scanEdge, hp, h.cfg, h.latch] at hedge
    rwa [hnow, ← hedge]
  have hlow : u.phase = .deassert → u.now.drvErr = false := by
    intro hp
    obtain ⟨-, hok, -⟩ := hsucceeds (hrows (.inr (.inr hp))).1
    simp only [State.scanEdge, hp, h.cfg, h.latch] at hedge
    rwa [hnow, ← hedge]
  have hfatal : u.phase = .sample → fatalColumn u.cfg u.now u.c = false := by
    intro hp
    obtain ⟨-, -, hok⟩ := hsucceeds (hrows (.inr (.inl hp))).1
    have hcol := hok u.c (mem_idxs u.c)
    simp only [State.scanEdge, hp, h.cfg, h.latch] at hedge
    rwa [hnow, h.cfg, ← hedge]
  have hidle := e.stays_in_scan hscan hfinish h.pend hhigh hlow
  have hbefore : u.phase = .row ∨ u.phase = .settle ∨ u.phase = .sample ∨ u.phase = .deassert := by
    simpa [State.Scans, hfinish] using hscan
  obtain ⟨hdrive, -, -, -, -, -, -, -, -, -, hpend⟩ := e.scan_frame hbefore hfatal hidle
  refine ⟨t, hnext hidle, ?_, hpend.trans h.pend, fun hs => ?_⟩
  · rw [e.scanEdge_succ hscan h.word h.rowInScan h.counter hfatal hidle, hedge]
  · exact onlyTheScannedRowIsHigh u t (h.rows hs) hdrive hstep

/-- A scan without failures is on time from its first edge to its FINISH edge. -/
theorem exists_onTime (hat : s.At .idle 0#2) (hlen : len = s.now.settleLen % 2 ^ s.sw) (hcmd : s.now.cmd = 0b01#2)
    (hst : s.Steady (finishEdge s.cfg len + 1)) (hok : ∀ r ∈ idxs, s.RowSucceeds len r) :
    ∀ {k : Nat}, k < finishEdge s.cfg len → ∃ u, OnTime s len (k + 1) u
  | 0, _ => by
    obtain ⟨u, hu, hedge, hpend, hrows⟩ := exists_inScan_of_read hat hlen hcmd hst (Nat.succ_pos _)
    exact ⟨u, hu, hedge, hpend, hrows⟩
  | k + 1, hk => by
    have ⟨_, _, _, _, _, hlayout⟩ := hat
    obtain ⟨u, hu⟩ := exists_onTime hat hlen hcmd hst hok (k := k) (by omega)
    exact hu.succ hlayout hst hk (by omega) hok

end OnTime

/-- The last edge of a scan without failures: FINISH publishes the keys sampled pressed (R85, R91). -/
theorem scan_publishes (hat : s.At .idle 0#2) (hlen : len = s.now.settleLen % 2 ^ s.sw) (hcmd : s.now.cmd = 0b01#2)
    (hst : s.Steady (finishEdge s.cfg len + 1)) (hok : ∀ r ∈ idxs, s.RowSucceeds len r) :
    ∃ t, run (finishEdge s.cfg len + 1) s = .next t ∧ t.phase = .idle ∧ t.doneQ = true ∧ t.validQ = true ∧
      t.maskQ = s.scanResult len ∧ t.errCodeQ = 0b000#3 ∧ t.lenQ = len := by
  obtain ⟨u, hu⟩ := exists_scanning_afterRows hat hlen hcmd hst le_rfl (by rw [finishEdge_eq_sum]; omega)
    fun r hr _ => hok r hr
  obtain ⟨-, -, hstep⟩ := hu.step_eq hst (by simp [Progress.afterRows, finishEdge_eq_sum]) rfl
  have hp : u.phase = .finish := hu.phase
  have hrule : phaseRule u.now u.beginEdge = finishRule u.now u.beginEdge := by simp [phaseRule, hp]
  have hrun := run_succ_of_last hu.ran hstep
  rw [hrule] at hrun
  rw [finishEdge_eq_sum]
  exact ⟨_, hrun, rfl, rfl, rfl, hu.acc, hu.errCode, hu.latch⟩

/-- Settles O50: on time, and so busy, up to FINISH, which publishes. -/
theorem scanPublishesTheSampledKeys : Obligations.ScanPublishesTheSampledKeys := by
  intro s len hat hlen hcmd hst hok
  refine ⟨fun k hk1 hk => ?_, scan_publishes hat hlen hcmd hst hok⟩
  obtain ⟨j, rfl⟩ := Nat.exists_eq_add_of_le' hk1
  obtain ⟨u, hu⟩ := OnTime.exists_onTime hat hlen hcmd hst hok hk
  exact ⟨u, hu.shows⟩

end

/-- The masks of no keys OR to 0. -/
theorem orKeys_eq_zero {layout : Layout} {f : Idx → Idx → Bool} (h : ∀ r c, f r c = false) :
    orKeys layout f = 0x0000#16 := by
  simp [orKeys, h, idxs]

/-- The mask of one key alone is its bit. -/
theorem orKeys_eq_keyMask {layout : Layout} {f : Idx → Idx → Bool} {r c : Idx}
    (h : ∀ r' c', f r' c' = true ↔ r' = r ∧ c' = c) : orKeys layout f = keyMask layout r c := by
  refine BitVec.eq_of_getLsbD_eq fun n _ => ?_
  rw [Bool.eq_iff_iff, getLsbD_orKeys_iff]
  simp only [h]
  constructor
  · rintro ⟨_, _, ⟨rfl, rfl⟩, hbit⟩
    exact hbit
  · exact fun hbit => ⟨r, c, ⟨rfl, rfl⟩, hbit⟩

/-- Settles O55: with no row present no row can fail, the FINISH edge is edge 5, and no key is read. -/
theorem unwiredRowsReadZero : Obligations.UnwiredRowsReadZero := by
  intro s hat hrows hcmd hst
  have habsent : ∀ r, hasRow s.cfg r = false := fun r => by rw [hasRow, hrows, lineBit_zero]
  have hfinish : ∀ len, finishEdge s.cfg len = 5 := fun len => by simp [finishEdge, rowCount, habsent]
  obtain ⟨t, hrun, hphase, hdone, hvalid, hmask, -, -⟩ := scan_publishes hat rfl hcmd (by rwa [hfinish])
    fun r _ => by simp [State.RowSucceeds, habsent]
  rw [hfinish] at hrun
  refine ⟨t, hrun, hphase, hdone, hvalid, hmask.trans (orKeys_eq_zero fun r c => ?_)⟩
  simp [habsent]

/-! ### A key that alone is wired -/

/-- An input listed nowhere is quiet, so what all listed inputs have and a quiet one too, every edge has. -/
theorem inputAt_of_forall {s : State} {P : Inputs → Prop} (hall : ∀ i ∈ s.pins, P i) (hquiet : P (Inputs.quiet s.cfg))
    (k : Nat) : P (s.inputAt k) := by
  unfold State.inputAt
  by_cases hk : k < s.pins.length
  · rw [List.getD_eq_getElem _ _ hk]
    exact hall _ (List.getElem_mem hk)
  · rwa [List.getD_eq_default _ _ (Nat.le_of_not_lt hk)]

/-- The ROW edge of another row lies outside the window in which a present row is high. -/
theorem rowEdge_outside_window (cfg : Cfg) {len : Nat} {r : Idx} (hrow : hasRow cfg r = true) (r' : Idx) :
    ¬(rowEdge cfg len r < rowEdge cfg len r' ∧ rowEdge cfg len r' ≤ rowEdge cfg len r + len + 6) := by
  have hcycles : rowCycles cfg len r = len + 7 := if_pos hrow
  obtain hlt | heq | hlt := Nat.lt_trichotomy r.toNat r'.toNat
  · have hle := rowEdge_add_rowCycles_le_rowEdge cfg len hlt
    omega
  · obtain rfl := BitVec.eq_of_toNat_eq heq
    omega
  · have hle := rowEdge_add_rowCycles_le_rowEdge cfg len hlt
    omega

/-- On time, the one present row is high exactly between its ROW edge and its DEASSERT edge (R99). -/
theorem OnTime.row_high_iff {s u : State} {len k : Nat} {r : Idx} (h : OnTime s len k u) (hlow : s.OnlyScannedRowHigh)
    (hpresent : ∀ r', hasRow s.cfg r' = true ↔ r' = r) :
    lineBit u.rowQ r = true ↔ rowEdge s.cfg len r < k ∧ k ≤ rowEdge s.cfg len r + len + 6 := by
  have hrow : hasRow s.cfg r = true := (hpresent r).mpr rfl
  have hscanned : Phase.rowHigh u.phase → u.r = r ∧ lineBit u.rowQ r = true := fun hp => by
    obtain ⟨hhas, hhigh⟩ := h.rowInScan.1 hp
    have hr := (hpresent u.r).mp (h.cfg ▸ hhas)
    exact ⟨hr, hr ▸ hhigh⟩
  have hlevels := h.rows hlow
  have hedge := h.edge
  unfold State.OnlyScannedRowHigh at hlevels
  obtain hp | hp | hp | hp | hp := h.scans <;> simp only [State.scanEdge, hp, h.cfg, h.latch] at hedge
  · have hbit : ¬lineBit u.rowQ r = true := by simp [hlevels, hp]
    exact iff_of_false hbit (hedge ▸ rowEdge_outside_window s.cfg hrow u.r)
  · obtain ⟨hr, hbit⟩ := hscanned (.inl hp)
    rw [hr] at hedge
    exact iff_of_true hbit (by omega)
  · obtain ⟨hr, hbit⟩ := hscanned (.inr (.inl hp))
    have hc := u.c.isLt
    rw [hr, sampleEdge] at hedge
    exact iff_of_true hbit (by omega)
  · obtain ⟨hr, hbit⟩ := hscanned (.inr (.inr hp))
    rw [hr, deassertEdge] at hedge
    exact iff_of_true hbit (by omega)
  · have hbit : ¬lineBit u.rowQ r = true := by simp [hlevels, hp]
    have hle := rowEdge_add_rowCycles_le_finishEdge s.cfg len r
    rw [rowCycles, if_pos hrow] at hle
    exact iff_of_false hbit (by omega)

/-- Settles O56: no drive fails and no column is fatal, so the scan is on time; only the wired row is driven, only the
wired column is read, and its sample falls into the row's high window. -/
theorem singleKeyIsPublishedAlone : Obligations.SingleKeyIsPublishedAlone := by
  intro s len r c hat hlen hcmd hlow hrows hcols hst hquiet hin
  have hrow : ∀ r', hasRow s.cfg r' = true ↔ r' = r := fun r' => by simp [hasRow, hrows, lineBit_oneLine]
  have hcol : ∀ c', hasCol s.cfg c' = true ↔ c' = c := fun c' => by simp [hasCol, hcols, lineBit_oneLine]
  have hinputs := inputAt_of_forall hquiet ⟨rfl, rfl, rfl⟩
  have hfatal : ∀ k c', fatalColumn s.cfg (s.inputAt k) c' = false := fun k c' => by
    obtain ⟨-, -, hnone⟩ := hinputs k
    simp [fatalColumn, hnone]
  have hok : ∀ r' ∈ idxs, s.RowSucceeds len r' := fun r' _ _ =>
    ⟨(hinputs _).1, (hinputs _).1, fun c' _ => hfatal _ c'⟩
  constructor
  case left =>
    intro k hk
    cases k with
    | zero => exact ⟨s, rfl, by simp [hlow]⟩
    | succ k =>
      obtain ⟨u, hu⟩ := OnTime.exists_onTime hat hlen hcmd hst hok hk
      refine ⟨u, hu.ran, ?_⟩
      rw [Bool.eq_iff_iff, decide_eq_true_iff]
      exact hu.row_high_iff (onlyScannedRowHigh_of_idle hat.1 hlow) hrow
  case right =>
    obtain ⟨t, hrun, hphase, -, hvalid, hmask, -, -⟩ := scan_publishes hat hlen hcmd hst hok
    refine ⟨t, hrun, hphase, hvalid, hmask.trans (orKeys_eq_keyMask fun r' c' => ?_)⟩
    have hle := rowEdge_add_rowCycles_le_finishEdge s.cfg len r
    rw [rowCycles, if_pos ((hrow r).mpr rfl)] at hle
    have hpressed : pressedColumn s.cfg (s.inputAt (sampleEdge s.cfg len r c)) c = true := by
      obtain ⟨-, herr, hnone⟩ := hinputs (sampleEdge s.cfg len r c)
      have hc := c.isLt
      have hbit := hin (sampleEdge s.cfg len r c) (by unfold sampleEdge; omega)
      rw [decide_eq_true (by unfold sampleEdge; omega)] at hbit
      simp [pressedColumn, (hcol c).mpr rfl, herr, hnone, hbit]
    constructor
    · intro hread
      obtain ⟨hhas, hkey⟩ : hasRow s.cfg r' = true ∧ _ := by simpa using hread
      obtain ⟨hwired, -⟩ := (pressedColumn_iff _ _ _).mp hkey
      exact ⟨(hrow r').mp hhas, (hcol c').mp hwired⟩
    · rintro ⟨rfl, rfl⟩
      simp [(hrow r').mpr rfl, hpressed]

end Sys2Proof.Machine
end

section
/-! RESET as one edge (70_reset_and_hazards.md R122, 10_state.md R19, R27, R36). -/

namespace Sys2Proof.Machine

/-- Settles O11: `resetRule` writes the table of R19, and an edge with `rst = 1` is RESET in every phase. -/
theorem resetWritesEveryRegister : Obligations.ResetWritesEveryRegister :=
  fun _ => ⟨rfl, step_of_reset⟩

/-- RESET uses up the edge's inputs and reads none of them but the static parameters (R122). -/
theorem resetRule_reads {i j : Inputs} (s : State) (rest : List Inputs) (hcfg : i.cfg = j.cfg) :
    resetRule i { s with pins := i :: rest } = resetRule j { s with pins := j :: rest } := by
  simp only [resetRule, hcfg, List.tail_cons]

/-- Settles O44: both edges are RESET, which takes the same parameters at each. -/
theorem resetReadsNoOtherInput : Obligations.ResetReadsNoOtherInput := by
  intro s i j rest hi hj hcfg
  rw [step_of_reset (s := { s with pins := i :: rest }) hi, step_of_reset (s := { s with pins := j :: rest }) hj]
  exact congrArg _ (resetRule_reads s rest hcfg)

end Sys2Proof.Machine
end

section
/-! The construction that fails, and the scan that follows a scan at once (70_reset_and_hazards.md R124, R134). -/

namespace Sys2Proof.Machine

/-- INIT with a failed drive parks the FSM in INIT_FAILED and records the row (41_scan_fsm.md R79). -/
theorem initRule_of_failure {i : Inputs} {s : State} (hrow : hasRow s.cfg s.r = true) (herr : i.drvErr = true) :
    initRule i s =
      { s with
        padUnknown := setLine s.padUnknown s.r true, errCodeQ := codeInitLowFail, errRowQ := s.r, r := 0#2,
        phase := .initFailed } := by
  simp [initRule, hrow, herr, driveRow_of_fail]

/-- A host steady for `n` edges is steady for fewer. -/
theorem State.Steady.mono {s : State} {m n : Nat} (h : s.Steady n) (hmn : m ≤ n) : s.Steady m := by
  obtain ⟨hlen, hall⟩ := h
  exact ⟨hmn.trans hlen, fun i hi => hall i (List.take_subset_take_left s.pins hmn hi)⟩

/-- The edge of construction at which a present row fails parks the FSM in INIT_FAILED (R124, 60_exceptions.md R106). -/
theorem Constructing.fails {s u : State} {k n : Nat} (h : Constructing s k u) (hk : k < 4) (hat : s.At .init 0#2)
    (hst : s.Steady n) (hkn : k < n) (hrow : hasRow s.cfg u.r = true) (herr : (s.inputAt k).drvErr = true) :
    run (k + 1) s = .next
      { u.beginEdge with
        padUnknown := setLine u.padUnknown u.r true, errCodeQ := codeInitLowFail, errRowQ := u.r, r := 0#2,
        phase := .initFailed } := by
  obtain ⟨-, -, -, hcode, -, hlayout⟩ := hat
  obtain ⟨-, hphase, -⟩ | ⟨rfl, -⟩ := h.word
  case inr => omega
  have hword : u.WordReachable := by simp [State.WordReachable, hphase, reachableWord, h.col]
  obtain ⟨hnow, -, hstep⟩ := step_of_steady hst hkn h.pins h.cfg h.launched hlayout hword
    (by rw [State.CodeAssigned, h.errCode]; exact hcode)
  have hrule : phaseRule u.now u.beginEdge = initRule u.now u.beginEdge := by simp [phaseRule, hphase]
  rw [hrule, initRule_of_failure (by rwa [State.beginEdge_cfg, h.cfg]) (by rwa [hnow])] at hstep
  exact run_succ_of_last h.ran hstep

/-- Settles O47: construction stands in INIT at row `k` after `k` edges, and the next edge fails there. -/
theorem constructionFailsAtFirstFailedRow : Obligations.ConstructionFailsAtFirstFailedRow := by
  intro s k hat hst hok hrow herr
  have hk : k.toNat < 4 := k.isLt
  obtain ⟨u, hu⟩ := exists_constructing hat (hst.mono k.toNat.le_succ) hok k.toNat le_rfl hk.le
  obtain ⟨-, -, hr⟩ | ⟨hk4, -⟩ := hu.word
  case inr => omega
  obtain rfl : u.r = k := BitVec.eq_of_toNat_eq hr
  exact ⟨_, hu.fails hk hat hst (Nat.lt_succ_self _) hrow herr, rfl, rfl, rfl, rfl, rfl, rfl⟩

/-- Settles O58: FINISH publishes and goes to IDLE, where the next edge accepts READ and keeps the published mask. -/
theorem backToBackScans : Obligations.BackToBackScans := by
  rintro s ⟨hp, hr, hc, hcode, hl, hlayout⟩ hst hcmd
  have hword : s.WordReachable := by simp [State.WordReachable, hp, hr, hc, reachableWord]
  obtain ⟨-, -, hfinish⟩ := step_of_steady hst (k := 0) (by decide) rfl rfl hl hlayout hword hcode
  have hpublish : phaseRule s.now s.beginEdge = finishRule s.now s.beginEdge := by simp [phaseRule, hp]
  rw [hpublish] at hfinish
  have hrun : run 1 s = .next (finishRule s.now s.beginEdge) := run_succ_of_last (run_zero s) hfinish
  refine ⟨⟨_, hrun, rfl, rfl, rfl, rfl⟩, ?_⟩
  have hword' : (finishRule s.now s.beginEdge).WordReachable := by simp [State.WordReachable, hc, reachableWord]
  obtain ⟨hnow, -, hidle⟩ := step_of_steady (u := finishRule s.now s.beginEdge) hst (k := 1) (by decide) (by simp) rfl hl
    hlayout hword' hcode
  have hread : phaseRule (s.inputAt 1) (finishRule s.now s.beginEdge).beginEdge =
      readRule (s.inputAt 1) (finishRule s.now s.beginEdge).beginEdge := by
    simp [phaseRule, idleRule, hcmd]
  rw [hnow, hread] at hidle
  exact ⟨_, run_succ_of_last hrun hidle, rfl, rfl, rfl, rfl, rfl⟩

end Sys2Proof.Machine
end
